-- ==== Sys2Proof/Word.lean ====
section
/-! DEFINITION. The bit strings of the engine, each with the width the spec gives it (00_scope.md R9: bits N-1 down to
0, unsigned, the block has no signed value). -/

namespace Sys2Proof

/-- One byte on the transport, one checksum, one accumulator value (R116). -/
abbrev Byte := BitVec 8

/-- One decoded word, one result register, one command code, one parameter (R21, R81, R133). -/
abbrev Word := BitVec 16

/-- The host operation select `op` (R90). -/
abbrev Op := BitVec 4

/-- A bus address of the transport, 7 bits (R8, assumption 2). -/
abbrev BusAddr := BitVec 7

end Sys2Proof
end

