-- ==== Sys2Proof/Config.lean ====
section
/-! DEFINITION. The configuration: the parameters of 00_scope.md R8 that the source leaves open, as one record that
every operation of the model takes as an argument, and the values no rule states, which no proof can see. The
values of the one engine that `exec` and `step` run are in Sys2Proof/Machine/Parameters.lean. R36 (a): the
configuration is not state. -/

namespace Sys2Proof

/-- `UNINIT_POLICY` (R8, R213): what a model does with `MEAS`, `MEASRAW` or `SETHUM` while Uninitialized. -/
inductive UninitPolicy where
  /-- The engine has no guard and runs the operation. -/
  | execute
  /-- The model gives the request no meaning. -/
  | refuse
  deriving DecidableEq, Repr

/-- The open parameters of R8, one engine instance's constants. -/
structure Config where
  /-- `POLY`: the checksum polynomial. -/
  poly : Byte
  /-- `INIT`: the value every checksum computation starts from. -/
  init : Byte
  /-- `GOLDEN_BEEF`: the reference checksum of (0xBE, 0xEF) (R115). -/
  goldenBeef : Byte
  /-- `BUS_ADDR`: the peripheral's fixed bus address (R58). -/
  busAddr : BusAddr
  /-- `EXPECTED_FAMILY`: the constant the masked feature-set word must equal (R172). -/
  expectedFamily : Word
  /-- `TIME_UNIT` in microseconds; no rule depends on it (R57, R241). -/
  timeUnitMicros : Nat
  /-- `ARG_WIDTH`: how many bits the operand of a host request has (R28, R32). -/
  argWidth : Nat
  /-- `TRACE_EN`: whether each checked reply word is shown on the trace port (R219). -/
  traceEn : Bool
  /-- `UNINIT_POLICY` (R213). -/
  uninitPolicy : UninitPolicy
  deriving DecidableEq, Repr

/-- The registers to which R38 gives no reset value. -/
inductive ResetReg where
  | eco2 | tvoc | rawH2 | rawEth | arg | acc | bitcnt
  deriving DecidableEq, Repr

/-- What a register of `ResetReg` holds after the n-th reset (n = 0: the state the machine comes into being in).
R38 calls these values unspecified and asks for a free draw: the constant has no body, so nothing can be proved of
them; a register takes as many of its bits as it has (assumptions 7 and 8). -/
opaque Config.unspecifiedAtReset : Nat → ResetReg → Nat

/-- What `TXBUF` holds after `CMD.ASM` is run by itself on a payload whose frame is longer than the buffer: R131
defines the function for every payload and R136 bounds the buffer, and no rule says what the buffer then holds. A
free value (assumption 20). -/
opaque Config.overlongFrame : Word → List Word → List Byte

/-- The result of `FRAME.VAL` (R134): the words, or the index of the first that does not verify. -/
inductive FrameResult where
  | ok (words : List Word)
  | corrupt (index : Nat)
  deriving DecidableEq, Repr, Inhabited

/-- The result of `FRAME.VAL` run by itself on a word count outside 1 to `MAX_WORDS` or on a byte sequence of another
length than 3·w: R134 gives the operation no such operands, and no rule states the result. A free value
(assumption 29). -/
opaque Config.unstatedFrameResult : Nat → List Byte → FrameResult

end Sys2Proof
end

