-- ==== Sys2Proof/Machine/Checksum.lean ====
section
/-! DEFINITION. The checksum engine at its three grains (40_checksum.md R110 to R113), as pure functions of the
input, `POLY` and `INIT`. -/

namespace Sys2Proof.Machine

/-- R111, the bit step: shift left by one in 8 bits, and XOR with `POLY` when the bit shifted out is 1. -/
def crcBit (poly a : Byte) : Byte :=
  if a.msb then (a <<< 1) ^^^ poly else a <<< 1

/-- n bit steps. -/
def crcBits (poly : Byte) : Nat → Byte → Byte
  | 0, a => a
  | n + 1, a => crcBits poly n (crcBit poly a)

/-- R112, the byte step: the byte is XORed whole into the accumulator, then exactly eight bit steps. -/
def crcByte (poly a b : Byte) : Byte :=
  crcBits poly 8 (a ^^^ b)

/-- The loop of R113 from any accumulator. -/
def crcFrom (poly : Byte) (a : Byte) (data : List Byte) : Byte :=
  data.foldl (crcByte poly) a

/-- R113: the accumulator starts at `INIT` and absorbs the bytes first byte first; no final XOR. -/
def crc8 (c : Config) (data : List Byte) : Byte :=
  crcFrom c.poly c.init data

end Sys2Proof.Machine
end

