-- ==== Sys2Proof/Machine/Parameters.lean ====
section
/-! DEFINITION. The values of the parameters: the constants the source states (R8, R170), the capacities the spec
decides, and the one configuration that `exec` and `step` run, which is the spec's recommended default (R8). -/

namespace Sys2Proof

/-- `HUM_MAX`, the largest accepted humidity input (R8, R177). -/
abbrev Config.humMax : Nat := 256000

/-- `T_INIT`, in time-units (R8, R241). -/
abbrev Config.tInit : Nat := 10

/-- `T_MEAS`, in time-units (R8, R241). -/
abbrev Config.tMeas : Nat := 12

/-- `T_RAW`, in time-units (R8, R241). -/
abbrev Config.tRaw : Nat := 25

/-- `MAX_WORDS`, the most words a reply has (R8, conflict C1). -/
abbrev Config.maxWords : Nat := 3

/-- `MAX_GROUPS`, the most payload groups the hardware buffers (R8, assumption 5). -/
abbrev Config.maxGroups : Nat := 1

/-- The default of every open parameter (R8). PRESUMED: the spec marks `POLY`, `INIT`, `GOLDEN_BEEF`, `BUS_ADDR`,
`EXPECTED_FAMILY` and `TIME_UNIT` as general knowledge (assumptions 1 to 4); DESIGN CHOICE: `ARG_WIDTH`
(assumption 5), `TRACE_EN` and `UNINIT_POLICY` (assumption 6). -/
def Config.sg33 : Config where
  poly := 0x31#8
  init := 0xFF#8
  goldenBeef := 0x92#8
  busAddr := 0x58#7
  expectedFamily := 0x0020#16
  timeUnitMicros := 1000
  argWidth := 32
  traceEn := false
  uninitPolicy := .execute

end Sys2Proof
end

