-- ==== Sys2Proof/Machine/Operands.lean ====
section
/-! DEFINITION. Operand forms: the bytes of a 16-bit quantity and back (R59, R85 to R87), the operand of the
checksum port (R119), the humidity range check and scaler (R176, R177), and the family test (R172). -/

namespace Sys2Proof.Machine

/-- Bits [15:8] of a 16-bit quantity: the byte that crosses the transport first (R59). -/
def hiByte (w : Word) : Byte := w.extractLsb' 8 8

/-- Bits [7:0] of a 16-bit quantity: the byte that crosses the transport second (R59). -/
def loByte (w : Word) : Byte := w.extractLsb' 0 8

/-- The two data bytes of a 16-bit quantity in wire order (R85, R86). -/
def wordBytes (w : Word) : List Byte := [hiByte w, loByte w]

/-- R87 and R133: `(zext_16(b0) << 8) | zext_16(b1)`. -/
def wordDec (b0 b1 : Byte) : Word := (b0.setWidth 16 <<< 8) ||| b1.setWidth 16

/-- The `ARG_WIDTH` bits of an operand that a request carries (R28, R32, assumption 5). -/
def argBits (c : Config) (a : Nat) : Nat := a % 2 ^ c.argWidth

/-- The byte a `CRC8.UPD` absorbs: `arg[7:0]`, the bits above 7 ignored (R90, R119). DESIGN CHOICE: with `ARG_WIDTH` below
8, which R8 allows, the operand has no bits `ARG_WIDTH` to 7 (R9) and no rule says what the slice then is; the model
extends the operand with zeros to a byte (assumption 30). -/
def argByte (c : Config) (a : Nat) : Byte := BitVec.ofNat 8 (argBits c a)

/-- R177: the range check, on all the bits the operand has, unsigned; 256000 itself is accepted. -/
def humInRange (a : Nat) : Bool := a ≤ Config.humMax

/-- R176: `trunc_16((zext_64(v) * 4294912) >> 24)`, the floor of `v * 256 * 16777 / 2^24` in 64 bits. (The constant
stands first in the product so that the kernel does not unfold a multiplication by it.) -/
def humScale (v : Nat) : Word := ((4294912#64 * BitVec.ofNat 64 v) >>> 24).setWidth 16

/-- R172: the word masked with 0x00F0, in place, equals `EXPECTED_FAMILY`. -/
def familyMatch (c : Config) (w : Word) : Bool := (w &&& 0x00F0#16) == c.expectedFamily

/-- The test of R172 on the words of a verified `FEAT` reply; its one word is the first. -/
def familyOk (c : Config) (words : List Word) : Bool :=
  match words with
  | w :: _ => familyMatch c w
  | [] => false

end Sys2Proof.Machine
end

