-- ==== Sys2Proof/Syntax.lean ====
section
/-! DEFINITION. The operations of the engine, one constructor per row of spec/opcode_table.json, and the host
request by which the host names one of them (R32, R90). -/

namespace Sys2Proof

/-- A request on the host channel: one atomic event carrying `op` and `arg` (R32). -/
structure Request where
  /-- The operation select (R90). -/
  op : Op
  /-- The operand, as the unsigned number it is (R9, R28). Its width is `ARG_WIDTH` of R8, a field of the configuration, so
  that the type has none; the bits the channel carries are `Machine.argBits` (assumption 5). -/
  arg : Nat
  deriving DecidableEq, Repr

/-- The operands of one `EXECUTE` (R150). -/
structure Xact where
  code : Word
  payload : List Word
  settle : Nat
  words : Nat
  deriving DecidableEq, Repr

/-- The 26 operations (R6). The first sixteen are the host's (R90); the last ten are internal: the host reaches
them only through the operations that use them (R90, assumption 14). -/
inductive Instr where
  /-- `IDENT`, R171. -/
  | ident
  /-- `FEAT`, R172. -/
  | feat
  /-- `INIT`, R173. -/
  | init
  /-- `MEAS`, R174. -/
  | meas
  /-- `MEASRAW`, R175. -/
  | measRaw
  /-- `SETHUM`, R177. -/
  | setHum (arg : Nat)
  /-- `BEGIN`, R178. -/
  | beginSeq
  /-- `CRC8.CLR`, R119. -/
  | crcClr
  /-- `CRC8.UPD`, R119; only `arg[7:0]` is used. -/
  | crcUpd (arg : Nat)
  /-- `CRC8.RD`, R119. -/
  | crcRd
  /-- Reserved select code 0x7, R91. -/
  | reserved7
  /-- Reserved select code 0xB, R91. -/
  | reservedB
  /-- Reserved select code 0xC, R91. -/
  | reservedC
  /-- Reserved select code 0xD, R91. -/
  | reservedD
  /-- Reserved select code 0xE, R91. -/
  | reservedE
  /-- Reserved select code 0xF, R91. -/
  | reservedF
  /-- `CRC8.BIT`, R111. -/
  | crcBit (a : Byte)
  /-- `CRC8.BYTE`, R112. -/
  | crcByte (a b : Byte)
  /-- `CRC8`, R113. -/
  | crc8 (data : List Byte)
  /-- `GROUP.ENC`, R130. -/
  | groupEnc (p : Word)
  /-- `CMD.ASM`, R131. -/
  | cmdAsm (code : Word) (payload : List Word)
  /-- `WORD.CHK`, R132. -/
  | wordChk (b0 b1 c : Byte)
  /-- `WORD.DEC`, R133. -/
  | wordDec (b0 b1 : Byte)
  /-- `FRAME.VAL`, R134. -/
  | frameVal (w : Nat) (rx : List Byte)
  /-- `EXECUTE`, R150. -/
  | execute (x : Xact)
  /-- `HUM.SCALE`, R176. -/
  | humScale (v : Nat)
  deriving DecidableEq, Repr

end Sys2Proof
end

