-- ==== Sys2Proof/Machine/State.lean ====
section
/-! DEFINITION. The state of one engine instance with its ports (10_state.md), the events it issues, the reasons a
step can stop, and the state after reset (R38, R230). -/

namespace Sys2Proof.Machine

/-- `PHASE`, the phase of the transaction in progress (R26). -/
inductive Phase where
  | idle | assemble | write | settle | read | verify | respond
  deriving DecidableEq, Repr

/-- `SUBSTEP`, which transaction of `BEGIN` is in progress: 0, 1 and 2 in this order (R27). -/
inductive Substep where
  | identify | readFeatures | initMeas
  deriving DecidableEq, Repr

/-- The failure causes of R201. -/
inductive Cause where
  | none | transportWrite | transportRead | checksumMismatch | familyMismatch | inputRange | refused
  deriving DecidableEq, Repr

/-- A response on the host channel (R33). -/
structure Response where
  ok : Bool
  cause : Cause
  words : List Word
  deriving DecidableEq, Repr

/-- The value an internal operation hands to whatever used it (R111 to R113, R130 to R134, R176). -/
inductive Value where
  | bit (b : Bool)
  | byte (b : Byte)
  | word (w : Word)
  | bytes (l : List Byte)
  | frame (r : FrameResult)
  deriving DecidableEq, Repr

/-- What the engine issues on its ports. -/
inductive Event where
  /-- The request `MemWrite(addr, n, v)` with `v = bytes` (R51). -/
  | write (addr : BusAddr) (bytes : List Byte)
  /-- The request `Sleep(d)` (R57). -/
  | sleep (units : Nat)
  /-- The request `MemRead(addr, n)` (R52). -/
  | read (addr : BusAddr) (count : Nat)
  /-- The response that ends an operation (R33). -/
  | response (r : Response)
  /-- `Trace(i, computed, received)` (R219). -/
  | trace (index : Nat) (computed received : Byte)
  /-- The result of an internal operation run by itself (assumption 14). -/
  | result (v : Value)
  deriving DecidableEq, Repr

/-- The result of one `EXECUTE`, held while `PHASE = RESPOND` (R157, assumption 21). -/
inductive XactResult where
  | ok (words : List Word)
  | fail (cause : Cause)
  deriving DecidableEq, Repr

/-- The operation in progress while `BUSY = 1` (assumption 21). -/
inductive Job where
  | ident | feat | init | meas | measRaw | setHum | beginSeq
  | execute (x : Xact)
  deriving DecidableEq, Repr

/-- One engine instance and its ports. -/
structure State where
  /-- x[0], `ECO2` (R21). -/
  eco2 : Word
  /-- x[1], `TVOC` (R21). -/
  tvoc : Word
  /-- x[2], `RAWH2` (R21). -/
  rawH2 : Word
  /-- x[3], `RAWETH` (R21). -/
  rawEth : Word
  /-- `READY`: false is Uninitialized, true is Ready (R23). -/
  ready : Bool
  /-- `CACC`, the accumulator of the host checksum port (R39). -/
  cacc : Byte
  /-- `BUSY` (R24). -/
  busy : Bool
  /-- `PHASE` (R26). -/
  phase : Phase
  /-- `SUBSTEP` (R27). -/
  substep : Substep
  /-- `ARG`, the latched operand of `SETHUM`: `ARG_WIDTH` bits as a number (R28, assumption 5). -/
  arg : Nat
  /-- `TXBUF`, the outgoing bytes of the transaction in progress, at most 5 (R29). -/
  txbuf : List Byte
  /-- `RXBUF`, the incoming bytes of the transaction in progress, at most 9 (R30). -/
  rxbuf : List Byte
  /-- `ACC`, the accumulator of the checksum engine (R31). -/
  acc : Byte
  /-- `BITCNT`, the bit steps done on the byte in progress (R31). -/
  bitcnt : BitVec 3
  /-- The operation in progress (implied by R26 and R157; assumption 21). -/
  job : Option Job
  /-- The result of the transaction whose `PHASE` is `RESPOND` (implied by R157; assumption 21). -/
  pending : Option XactResult
  /-- The reset input (R35, R230): `none` when it is not asserted; `some k` when a reset event is presented that lands
  after k more transitions of the engine, so that it can land in every phase (R231, assumption 11). -/
  rst : Option Nat
  /-- The host request channel: requests presented and not yet accepted, in order (R32, R236). -/
  reqs : List Request
  /-- The transport's answers to writes still to come, in order: true is `ok` (R51, assumption 9). -/
  writeAnswers : List Bool
  /-- How many sleeps the delay primitive will still answer (R57, assumption 9). -/
  wakeups : Nat
  /-- The transport's answers to reads still to come, in order: `none` is `fail` (R52, assumption 9). -/
  readAnswers : List (Option (List Byte))
  /-- Every event issued so far, oldest first: the model's record of the output ports, which no operation reads
  (assumption 10). -/
  out : List Event
  /-- How many reset events there have been: the model's counter of free draws (assumption 17). -/
  resets : Nat
  deriving DecidableEq, Repr

/-- The reasons a step can stop with a fault. The spec names no fault: every failure of the hardware is a response
(R200), and an unanswered request is a wait (R55). -/
inductive Fault where
  /-- Raised by `step` in a state whose `BUSY`, `PHASE`, operation in progress and pending result do not fit
  together (R26, R157 give such a state no transition). No reset and no step leads to one. Safe (assumption 22). -/
  | sequencer
  deriving DecidableEq, Repr

/-- The reasons the model gives no meaning. -/
inductive Refusal where
  /-- Raised by `exec` for an instruction without a meaning; no arm does. Safe. -/
  | notModelled (mnemonic : String)
  /-- Raised by `MEAS`, `MEASRAW` and `SETHUM` in range while Uninitialized, under `UNINIT_POLICY = refuse` only
  (R213); the engine `exec` runs has the policy `execute`. Safe. -/
  | uninitialised
  /-- Raised by `EXECUTE` with more payload groups or reply words than R160 says a model must refuse; no operation of the
  engine passes such operands. Safe (assumption 15). -/
  | operands
  /-- Raised by `EXECUTE` while an operation is in progress (R50, R63: no two operations overlap; it has no select
  code, so there is no request to hold). Safe (assumption 13). -/
  | engineBusy
  /-- Raised by `execIn` and `stepIn` with a configuration whose `POLY` and `INIT` do not give its `GOLDEN_BEEF` (R115: such
  a configuration is refused). The engine `exec` and `step` run has one that does. Safe. -/
  | configuration
  deriving DecidableEq, Repr

/-- The state after reset number n of an engine with configuration c: R38 and R230, with a free draw where the spec
gives no value (assumptions 7, 8), nothing on any port. (No step starts from it where c breaks the constraint of R115:
`stepIn` refuses c.) -/
def State.fresh (c : Config) (n : Nat) : State where
  eco2 := BitVec.ofNat 16 (Config.unspecifiedAtReset n .eco2)
  tvoc := BitVec.ofNat 16 (Config.unspecifiedAtReset n .tvoc)
  rawH2 := BitVec.ofNat 16 (Config.unspecifiedAtReset n .rawH2)
  rawEth := BitVec.ofNat 16 (Config.unspecifiedAtReset n .rawEth)
  ready := false
  cacc := c.init
  busy := false
  phase := .idle
  substep := .identify
  arg := argBits c (Config.unspecifiedAtReset n .arg)
  txbuf := []
  rxbuf := []
  acc := BitVec.ofNat 8 (Config.unspecifiedAtReset n .acc)
  bitcnt := BitVec.ofNat 3 (Config.unspecifiedAtReset n .bitcnt)
  job := none
  pending := none
  rst := none
  reqs := []
  writeAnswers := []
  wakeups := 0
  readAnswers := []
  out := []
  resets := n

/-- The machine right after reset (R230). -/
def State.reset : State := State.fresh Config.sg33 0

end Sys2Proof.Machine
end

