-- ==== Sys2Proof/Machine/Framing.lean ====
section
/-! DEFINITION. The framing operations as pure functions (41_framing.md R130 to R134), the checks a reply frame goes
through with what the trace port shows of them (R219), and what is left in `ACC` (R31). -/

namespace Sys2Proof.Machine

/-- R130: the two data bytes, most significant first, and the checksum of exactly those two. -/
def groupEnc (c : Config) (p : Word) : List Byte :=
  wordBytes p ++ [crc8 c (wordBytes p)]

/-- R131: the two code bytes, which carry no checksum, then each group in order. -/
def cmdAsm (c : Config) (code : Word) (payload : List Word) : List Byte :=
  wordBytes code ++ payload.flatMap (groupEnc c)

/-- R132: compute and compare all 8 bits. -/
def wordChk (c : Config) (b0 b1 k : Byte) : Bool :=
  crc8 c [b0, b1] == k

/-- R134, from word index i on with w words left: the words in order, or the index of the first that does not
verify. A word that is not all there does not verify; no result rests on that: `EXECUTE` has no such frame (R53), and
of `FRAME.VAL` run by itself on one the result is a free value (assumption 29). -/
def frameValFrom (c : Config) : Nat → Nat → List Byte → FrameResult
  | 0, _, _ => .ok []
  | w + 1, i, b0 :: b1 :: k :: rest =>
    if wordChk c b0 b1 k then
      match frameValFrom c w (i + 1) rest with
      | .ok words => .ok (wordDec b0 b1 :: words)
      | .corrupt j => .corrupt j
    else .corrupt i
  | _ + 1, i, _ => .corrupt i

/-- R134: `frame_val(w, rx)`. -/
def frameVal (c : Config) (w : Nat) (rx : List Byte) : FrameResult :=
  frameValFrom c w 0 rx

/-- One checksum comparison: the word index, the byte computed and the byte received. -/
structure Check where
  index : Nat
  computed : Byte
  received : Byte
  deriving DecidableEq, Repr

/-- The comparisons `FRAME.VAL` makes, in order, the first mismatch included and nothing after it (R219). -/
def frameChecks (c : Config) : Nat → Nat → List Byte → List Check
  | 0, _, _ => []
  | w + 1, i, b0 :: b1 :: k :: rest =>
    ⟨i, crc8 c [b0, b1], k⟩ ::
      (if wordChk c b0 b1 k then frameChecks c w (i + 1) rest else [])
  | _ + 1, _, _ => []

/-- R219: one trace event for each comparison when `TRACE_EN` is true, none otherwise. -/
def traceEvents (c : Config) (checks : List Check) : List Event :=
  if c.traceEn then checks.map fun k => .trace k.index k.computed k.received else []

/-- What `ACC` holds after these comparisons: the last byte computed (R31, assumption 15). -/
def accAfterChecks (acc : Byte) (checks : List Check) : Byte :=
  checks.foldl (fun _ k => k.computed) acc

/-- What `ACC` holds after a command with this payload is assembled: the last group's checksum (R31, assumption 15). -/
def accAfterGroups (c : Config) (acc : Byte) (payload : List Word) : Byte :=
  payload.foldl (fun _ p => crc8 c (wordBytes p)) acc

/-- What `BITCNT` holds after n checksum computations: 0 once there has been one (R31, assumption 15). -/
def bitcntAfter (n : Nat) (bitcnt : BitVec 3) : BitVec 3 :=
  if n = 0 then bitcnt else 0

end Sys2Proof.Machine
end

