-- ==== Sys2Proof/Decode.lean ====
section
/-! DEFINITION. Decoding: a host request names an operation by its select code (R90); a command frame seen on the
transport names the command that wrote it (R89, R95). Then the two encoders, written from the same tables, and the
reading of a word of spec/opcode_table.json. -/

namespace Sys2Proof

open Machine

/-- R90: the operation a request names. Every one of the 16 codes is a row of the table, the reserved ones too
(R91), and the last arm is 0xF alone, a 4-bit code being below 16; `arg` is ignored but for `SETHUM` and `CRC8.UPD`
(R32). -/
def decodeRequest (r : Request) : Instr :=
  match r.op.toNat with
  | 0x0 => .ident
  | 0x1 => .feat
  | 0x2 => .init
  | 0x3 => .meas
  | 0x4 => .measRaw
  | 0x5 => .setHum r.arg
  | 0x6 => .beginSeq
  | 0x7 => .reserved7
  | 0x8 => .crcClr
  | 0x9 => .crcUpd r.arg
  | 0xA => .crcRd
  | 0xB => .reservedB
  | 0xC => .reservedC
  | 0xD => .reservedD
  | 0xE => .reservedE
  | _ => .reservedF

/-- Why a byte sequence is no command frame of this engine (R95). -/
inductive FrameError where
  /-- Fewer than the two code bytes. -/
  | tooShort
  /-- The code is none of the six of R89. -/
  | unknownCode
  /-- The length is not the command's (R92). -/
  | badLength
  /-- The checksum byte of the payload group is not the checksum of its two data bytes (R82). -/
  | badChecksum
  /-- No operand of `ARG_WIDTH` bits has this scaled value, so that this engine wrote no such frame (R95; with the default
  width every value has one, R91 (d)). -/
  | noOperand
  deriving DecidableEq, Repr

/-- The command whose code is this, given the parameter of its frame if it has one (R89). -/
inductive WireCommand where
  | noPayload (i : Instr)
  | oneGroup
  deriving DecidableEq, Repr

/-- R89: the six command codes. -/
def commandOfCode (code : Word) : Option WireCommand :=
  if code = 0x3682#16 then some (.noPayload .ident)
  else if code = 0x202F#16 then some (.noPayload .feat)
  else if code = 0x2003#16 then some (.noPayload .init)
  else if code = 0x2008#16 then some (.noPayload .meas)
  else if code = 0x2050#16 then some (.noPayload .measRaw)
  else if code = 0x2061#16 then some .oneGroup
  else none

/-- The least humidity operand whose scaled value is p: a `SETHUM` frame carries only the scaled value, so the operand
read back from a frame is this one (assumption 18). -/
def humArg (p : Word) : Nat :=
  (4294911 + 16777216 * p.toNat) / 4294912

/-- R95: the command a frame on the transport came from. -/
def decodeFrame (c : Config) (frame : List Byte) : Except FrameError Instr :=
  match frame with
  | b0 :: b1 :: rest =>
    match commandOfCode (wordDec b0 b1), rest with
    | none, _ => .error .unknownCode
    | some (.noPayload i), [] => .ok i
    | some .oneGroup, [d0, d1, k] =>
      if !wordChk c d0 d1 k then .error .badChecksum
      else if humArg (wordDec d0 d1) < 2 ^ c.argWidth then .ok (.setHum (humArg (wordDec d0 d1)))
      else .error .noOperand
    | some _, _ => .error .badLength
  | _ => .error .tooShort

/-- R90: the request that names an operation; the internal operations have none. -/
def encode : Instr → Option Request
  | .ident => some ⟨0x0#4, 0⟩
  | .feat => some ⟨0x1#4, 0⟩
  | .init => some ⟨0x2#4, 0⟩
  | .meas => some ⟨0x3#4, 0⟩
  | .measRaw => some ⟨0x4#4, 0⟩
  | .setHum arg => some ⟨0x5#4, arg⟩
  | .beginSeq => some ⟨0x6#4, 0⟩
  | .reserved7 => some ⟨0x7#4, 0⟩
  | .crcClr => some ⟨0x8#4, 0⟩
  | .crcUpd arg => some ⟨0x9#4, arg⟩
  | .crcRd => some ⟨0xA#4, 0⟩
  | .reservedB => some ⟨0xB#4, 0⟩
  | .reservedC => some ⟨0xC#4, 0⟩
  | .reservedD => some ⟨0xD#4, 0⟩
  | .reservedE => some ⟨0xE#4, 0⟩
  | .reservedF => some ⟨0xF#4, 0⟩
  | .crcBit _ | .crcByte _ _ | .crc8 _ | .groupEnc _ | .cmdAsm _ _ => none
  | .wordChk _ _ _ | .wordDec _ _ | .frameVal _ _ | .execute _ | .humScale _ => none

/-- The wire frame of a command (R81, R82, R89): two code bytes, and for `SETHUM` in range the group of its scaled
operand. The other operations write no frame of their own. -/
def encodeFrame (c : Config) : Instr → Option (List Byte)
  | .ident => some [0x36#8, 0x82#8]
  | .feat => some [0x20#8, 0x2F#8]
  | .init => some [0x20#8, 0x03#8]
  | .meas => some [0x20#8, 0x08#8]
  | .measRaw => some [0x20#8, 0x50#8]
  | .setHum arg =>
    if humInRange (argBits c arg) then
      some ([0x20#8, 0x61#8] ++ groupEnc c (humScale (argBits c arg)))
    else none
  | .beginSeq | .crcClr | .crcUpd _ | .crcRd => none
  | .reserved7 | .reservedB | .reservedC | .reservedD | .reservedE | .reservedF => none
  | .crcBit _ | .crcByte _ _ | .crc8 _ | .groupEnc _ | .cmdAsm _ _ => none
  | .wordChk _ _ _ | .wordDec _ _ | .frameVal _ _ | .execute _ | .humScale _ => none

/-- The n bytes of a number, most significant first: the bit numbering of R80, in which bit 0 is bit 0 of the last
byte of a frame. -/
def frameBytes : Nat → Nat → List Byte
  | 0, _ => []
  | n + 1, w => BitVec.ofNat 8 (w >>> (8 * n)) :: frameBytes n w

/-- The request a word of spec/opcode_table.json stands for (assumption 19). Eight bits hold a host select code, its
four upper bits zero; 16 and 40 bits hold a command frame of format W0 or W1, and the request is the one that makes
the engine write that frame. -/
def tableRequest (nbits w : Nat) : Option Request :=
  if nbits = 8 then
    if w < 16 then some ⟨BitVec.ofNat 4 w, 0⟩ else none
  else if nbits = 16 ∨ nbits = 40 then
    if w < 2 ^ nbits then
      match decodeFrame Config.sg33 (frameBytes (nbits / 8) w) with
      | .ok i => encode i
      | .error _ => none
    else none
  else none

/-- The instruction the decoder reads from a word of spec/opcode_table.json, by the numbering of R80. -/
def decodeTableWord (nbits w : Nat) : Option Instr :=
  (tableRequest nbits w).map decodeRequest

end Sys2Proof
end

