-- ==== Sys2Proof/Machine/Flags.lean ====
section
/-! DEFINITION. The flags: the codes of `cause` and `SUBSTEP`, the fit of the sequencer's state bits, and the reads
of the status port. -/

namespace Sys2Proof.Machine

/-- R201: the 3-bit code of a cause; 6 is never issued. -/
def Cause.code : Cause → BitVec 3
  | .none => 0
  | .transportWrite => 1
  | .transportRead => 2
  | .checksumMismatch => 3
  | .familyMismatch => 4
  | .inputRange => 5
  | .refused => 7

/-- R27: the value of `SUBSTEP`. -/
def Substep.value : Substep → BitVec 2
  | .identify => 0
  | .readFeatures => 1
  | .initMeas => 2

/-- R10 and R34: the host's read of result register i on the status port; reading has no side effect. -/
def State.x (s : State) (i : Fin 4) : Word :=
  match i with
  | 0 => s.eco2
  | 1 => s.tvoc
  | 2 => s.rawH2
  | 3 => s.rawEth

/-- R26: `PHASE = IDLE` exactly when `BUSY = 0`; an operation is in progress exactly when `BUSY = 1`; a result is
pending exactly in `RESPOND` (R157). -/
def State.sequencerOk (s : State) : Bool :=
  (s.busy == (s.phase != .idle)) && (s.job.isSome == s.busy) &&
    (s.pending.isSome == (s.phase == .respond))

end Sys2Proof.Machine
end

