-- ==== Sys2Proof/Machine/Ops.lean ====
section
/-! DEFINITION. The named operations over the state and its ports: issuing an event, ending an operation with a
success or a failure (the engine's whole exception entry, R206 and R211), holding a request (R236), fetching one, and the
reset event (R230, R231). -/

namespace Sys2Proof.Machine

/-- One event on an output port. -/
def State.emit (s : State) (e : Event) : State := { s with out := s.out ++ [e] }

/-- The response of an operation that made no transport request: nothing but the event (R91, R119, R208). DESIGN CHOICE:
the acceptance of the request and this response are one transition, in which `BUSY` and `PHASE` stay as they are;
R24 would have `BUSY` 1 until the response, R26 ties it to a transaction's phase (assumption 25). -/
def State.reply (s : State) (r : Response) : State := s.emit (.response r)

/-- A success response (R33: `cause` is 0). -/
def okResponse (words : List Word) : Response := ⟨true, .none, words⟩

/-- A failure response (R33, R200: no words). -/
def failResponse (cause : Cause) : Response := ⟨false, cause, []⟩

/-- The end of an operation that ran a transaction: the response, `BUSY` to 0, `PHASE` to `IDLE`, the buffers
discarded (R29, R30, R33, R157; assumption 16). DESIGN CHOICE: `ARG` is not cleared (R28, R177; assumption 26). -/
def State.complete (s : State) (r : Response) : State :=
  { s with
    busy := false, phase := .idle, job := none, pending := none, txbuf := [], rxbuf := []
    out := s.out ++ [.response r] }

/-- Failure entry of an operation that ran a transaction (R206, R211): nothing is saved and control goes nowhere; the
result registers, `CACC` and `READY` keep their values and the response carries the cause, in one step. There is no
return from it: the engine is idle again (R212). -/
def State.failWith (s : State) (cause : Cause) : State := s.complete (failResponse cause)

/-- `raise Fail(cause)` inside `EXECUTE` (R10): the transaction goes to `RESPOND` with the cause (R157). -/
def State.raise (s : State) (cause : Cause) : State :=
  { s with phase := .respond, pending := some (.fail cause) }

/-- `return (ok, words)` of `EXECUTE` (R10): the transaction goes to `RESPOND` with the words (R157). -/
def State.succeed (s : State) (words : List Word) : State :=
  { s with phase := .respond, pending := some (.ok words) }

/-- R236: a request made while `BUSY = 1` is held, the next to be accepted; it is neither lost nor answered. -/
def State.hold (s : State) (i : Instr) : State :=
  match encode i with
  | some r => { s with reqs := r :: s.reqs }
  | none => s

/-- R32 and R236: a host operation is accepted when `BUSY = 0` and held otherwise. -/
def whenIdle (i : Instr) (s : State) (accepted : Host.Outcome State Fault Refusal) :
    Host.Outcome State Fault Refusal :=
  if s.busy then .next (s.hold i) else accepted

/-- The next request of the host channel, and the state once it has been taken. -/
def State.fetch (s : State) : Option (Request × State) :=
  match s.reqs with
  | [] => none
  | r :: rs => some (r, { s with reqs := rs })

/-- The reset event (R230, R231): every state element takes its reset value, the operation in progress is abandoned
without a response, and no transport request is made. An answer that has come and was not taken goes with the request
it answers, so that no later transaction takes it for an answer of its own (R233, assumption 28); the host's requests
and the record of events stay (assumption 17). -/
def State.resetEvent (c : Config) (s : State) : State :=
  { State.fresh c (s.resets + 1) with reqs := s.reqs, out := s.out }

end Sys2Proof.Machine
end

