-- ==== Sys2Proof/Machine/ChecksumPort.lean ====
section
/-! DEFINITION. The meanings of the checksum operations: the host port (40_checksum.md R119) and the three internal
grains (R111 to R113). -/

namespace Sys2Proof.Machine

/-- `CRC8.CLR` (R119): `CACC <- INIT`. -/
def crcClrIn (c : Config) (s : State) : Host.Outcome State Fault Refusal :=
  whenIdle .crcClr s (.next ({ s with cacc := c.init }.reply (okResponse [])))

/-- `CRC8.UPD` (R119): `CACC <- crc_byte(CACC, arg[7:0])`. -/
def crcUpdIn (c : Config) (arg : Nat) (s : State) : Host.Outcome State Fault Refusal :=
  whenIdle (.crcUpd arg) s
    (.next ({ s with cacc := crcByte c.poly s.cacc (argByte c arg) }.reply (okResponse [])))

/-- `CRC8.RD` (R119): one word, `zext_16(CACC)`; no state change. -/
def crcRdIn (s : State) : Host.Outcome State Fault Refusal :=
  whenIdle .crcRd s (.next (s.reply (okResponse [s.cacc.setWidth 16])))

/-- The checksum engine's registers after a computation: the accumulator, and no bit step of a byte in progress
(R31, assumption 15). -/
def State.setAcc (s : State) (a : Byte) : State := { s with acc := a, bitcnt := 0 }

/-- `CRC8.BIT` (R111): the result goes to `ACC`, and `BITCNT` counts the step (R31, assumptions 14, 15). -/
def crcBitIn (c : Config) (a : Byte) (s : State) : Host.Outcome State Fault Refusal :=
  .next ({ s with acc := crcBit c.poly a, bitcnt := s.bitcnt + 1 }.emit (.result (.byte (crcBit c.poly a))))

/-- `CRC8.BYTE` (R112): the result goes to `ACC` (R31, assumptions 14, 15). -/
def crcByteIn (c : Config) (a b : Byte) (s : State) : Host.Outcome State Fault Refusal :=
  .next ((s.setAcc (crcByte c.poly a b)).emit (.result (.byte (crcByte c.poly a b))))

/-- `CRC8` (R113): the result goes to `ACC` (R31, assumptions 14, 15). -/
def crc8In (c : Config) (data : List Byte) (s : State) : Host.Outcome State Fault Refusal :=
  .next ((s.setAcc (crc8 c data)).emit (.result (.byte (crc8 c data))))

/-- `CRC8.CLR` of the engine. -/
def execCrcClr (s : State) : Host.Outcome State Fault Refusal := crcClrIn Config.sg33 s

/-- `CRC8.UPD` of the engine. -/
def execCrcUpd (arg : Nat) (s : State) : Host.Outcome State Fault Refusal :=
  crcUpdIn Config.sg33 arg s

/-- `CRC8.RD` of the engine. -/
def execCrcRd (s : State) : Host.Outcome State Fault Refusal := crcRdIn s

/-- `CRC8.BIT` of the engine. -/
def execCrcBit (a : Byte) (s : State) : Host.Outcome State Fault Refusal := crcBitIn Config.sg33 a s

/-- `CRC8.BYTE` of the engine. -/
def execCrcByte (a b : Byte) (s : State) : Host.Outcome State Fault Refusal :=
  crcByteIn Config.sg33 a b s

/-- `CRC8` of the engine. -/
def execCrc8 (data : List Byte) (s : State) : Host.Outcome State Fault Refusal :=
  crc8In Config.sg33 data s

end Sys2Proof.Machine
end

