-- ==== Sys2Proof/Machine/Sequencer.lean ====
section
/-! DEFINITION. The sequencer: the command table (43_commands.md R170), the phases of a transaction and the
transitions between them (42_transaction.md R151 to R157), what each command does with its result (R171 to R178),
and the run of the engine until it is idle or waits for an answer that has not come. -/

namespace Sys2Proof.Machine

/-- R171. -/
def xactIdent : Xact := ⟨0x3682#16, [], Config.tInit, 3⟩

/-- R172. -/
def xactFeat : Xact := ⟨0x202F#16, [], Config.tInit, 1⟩

/-- R173. -/
def xactInit : Xact := ⟨0x2003#16, [], Config.tInit, 0⟩

/-- R174. -/
def xactMeas : Xact := ⟨0x2008#16, [], Config.tMeas, 2⟩

/-- R175. -/
def xactMeasRaw : Xact := ⟨0x2050#16, [], Config.tRaw, 2⟩

/-- R177. -/
def xactSetHum (p : Word) : Xact := ⟨0x2061#16, [p], Config.tInit, 0⟩

/-- R178: the three transactions of `BEGIN`. -/
def xactBegin : Substep → Xact
  | .identify => xactIdent
  | .readFeatures => xactFeat
  | .initMeas => xactInit

/-- R170: the operands of the `EXECUTE` that an operation in progress runs. -/
def Job.xact (j : Job) (sub : Substep) (arg : Nat) : Xact :=
  match j with
  | .ident => xactIdent
  | .feat => xactFeat
  | .init => xactInit
  | .meas => xactMeas
  | .measRaw => xactMeasRaw
  | .setHum => xactSetHum (humScale arg)
  | .beginSeq => xactBegin sub
  | .execute x => x

/-- `ASSEMBLE` to `WRITE` (R151, R152): the frame is put in `TXBUF` and the write is requested. -/
def State.assemble (c : Config) (s : State) (x : Xact) : State :=
  { s with
    txbuf := cmdAsm c x.code x.payload
    acc := accAfterGroups c s.acc x.payload
    bitcnt := bitcntAfter x.payload.length s.bitcnt
    phase := .write
    out := s.out ++ [.write c.busAddr (cmdAsm c x.code x.payload)] }

/-- `WRITE` (R152): an `ok` answer leads to `SETTLE` and the sleep is requested; a `fail` answer ends the
transaction, without sleep or read; no answer, no step (R55). -/
def State.awaitWrite (s : State) (x : Xact) : Option State :=
  match s.writeAnswers with
  | [] => none
  | true :: ws => some { s with writeAnswers := ws, phase := .settle, out := s.out ++ [.sleep x.settle] }
  | false :: ws => some ({ s with writeAnswers := ws }.raise .transportWrite)

/-- `SETTLE` (R153, R154): once the sleep is answered, success for a command without reply words, else `READ` and the
read is requested; no answer, no step. -/
def State.awaitSleep (c : Config) (s : State) (x : Xact) : Option State :=
  match s.wakeups with
  | 0 => none
  | n + 1 =>
    if x.words = 0 then some ({ s with wakeups := n }.succeed [])
    else some { s with wakeups := n, phase := .read, out := s.out ++ [.read c.busAddr (3 * x.words)] }

/-- `READ` (R155): exactly the requested number of bytes go to `RXBUF` in the order received; any other answer is a
failure (R53); no answer, no step (R55). -/
def State.awaitRead (s : State) (x : Xact) : Option State :=
  match s.readAnswers with
  | [] => none
  | none :: rs => some ({ s with readAnswers := rs }.raise .transportRead)
  | some bytes :: rs =>
    if bytes.length = 3 * x.words then
      some { s with readAnswers := rs, rxbuf := bytes, phase := .verify }
    else some ({ s with readAnswers := rs }.raise .transportRead)

/-- The checksum engine's working state and the trace port after these comparisons (R31, R219). -/
def State.checked (c : Config) (s : State) (checks : List Check) : State :=
  { s with
    acc := accAfterChecks s.acc checks
    bitcnt := bitcntAfter checks.length s.bitcnt
    out := s.out ++ traceEvents c checks }

/-- `VERIFY` (R156): every word verifies and the words are the result, or the whole frame is rejected. -/
def State.verify (c : Config) (s : State) (x : Xact) : State :=
  let s' := s.checked c (frameChecks c x.words 0 s.rxbuf)
  match frameVal c x.words s.rxbuf with
  | .ok words => s'.succeed words
  | .corrupt _ => s'.raise .checksumMismatch

/-- R174: `ECO2` and `TVOC` together; a word that is not there leaves its register. -/
def State.storeMeas (s : State) (words : List Word) : State :=
  { s with eco2 := words.getD 0 s.eco2, tvoc := words.getD 1 s.tvoc }

/-- R175: `RAWH2` and `RAWETH` together; a word that is not there leaves its register. -/
def State.storeRaw (s : State) (words : List Word) : State :=
  { s with rawH2 := words.getD 0 s.rawH2, rawEth := words.getD 1 s.rawEth }

/-- R178: the next substep of `BEGIN` starts. -/
def State.nextSubstep (s : State) (sub : Substep) : State :=
  { s with substep := sub, phase := .assemble, pending := none }

/-- R178: a failed `BEGIN` ends with `READY = 0`, in the same step as the response. -/
def State.failBegin (s : State) (cause : Cause) : State := { s with ready := false }.failWith cause

/-- R178: what `BEGIN` does with the words of a substep that succeeded. -/
def State.finishBegin (c : Config) (s : State) (words : List Word) : State :=
  match s.substep with
  | .identify => s.nextSubstep .readFeatures
  | .readFeatures => if familyOk c words then s.nextSubstep .initMeas else s.failBegin .familyMismatch
  | .initMeas => { s with ready := true }.complete (okResponse [])

/-- `RESPOND` (R157): the command's own handling of its result (R171 to R178). -/
def State.finish (c : Config) (s : State) (j : Job) (r : XactResult) : State :=
  match j, r with
  | .ident, .ok words => s.complete (okResponse words)
  | .feat, .ok words =>
    if familyOk c words then s.complete (okResponse words) else s.failWith .familyMismatch
  | .init, .ok _ => s.complete (okResponse [])
  | .meas, .ok words => (s.storeMeas words).complete (okResponse words)
  | .measRaw, .ok words => (s.storeRaw words).complete (okResponse words)
  | .setHum, .ok _ => s.complete (okResponse [])
  | .execute _, .ok words => s.complete (okResponse words)
  | .beginSeq, .ok words => s.finishBegin c words
  | .beginSeq, .fail cause => s.failBegin cause
  | _, .fail cause => s.failWith cause

/-- One transition of R157; none where the engine is idle or waits for an answer that has not come. -/
def advance (c : Config) (s : State) : Option State :=
  match s.job with
  | none => none
  | some j =>
    let x := j.xact s.substep s.arg
    match s.phase with
    | .idle => none
    | .assemble => some (s.assemble c x)
    | .write => s.awaitWrite x
    | .settle => s.awaitSleep c x
    | .read => s.awaitRead x
    | .verify => some (s.verify c x)
    | .respond => s.pending.map (s.finish c j)

/-- Up to n transitions. -/
def run (c : Config) : Nat → State → State
  | 0, s => s
  | n + 1, s =>
    match advance c s with
    | none => s
    | some s' => run c n s'

/-- No operation takes more transitions than this: three transactions of six phases each (R157, R178). -/
def runFuel : Nat := 18

/-- The engine runs until it is idle or waits for an answer that has not come (assumption 11). -/
def settleDown (c : Config) (s : State) : State := run c runFuel s

/-- A command starts: `BUSY` to 1, `PHASE` to `ASSEMBLE` (R24, R157). -/
def State.start (s : State) (j : Job) : State :=
  { s with busy := true, phase := .assemble, job := some j, pending := none }

/-- A command starts and runs (assumption 11). -/
def State.runJob (c : Config) (s : State) (j : Job) : State := settleDown c (s.start j)

/-- R213: `MEAS`, `MEASRAW` and `SETHUM` in range run in both driver states under the policy `execute`; under
`refuse` the model gives them no meaning while Uninitialized. -/
def whenReady (c : Config) (s : State) (run : Host.Outcome State Fault Refusal) :
    Host.Outcome State Fault Refusal :=
  if c.uninitPolicy = .refuse ∧ s.ready = false then .refused .uninitialised else run

end Sys2Proof.Machine
end

