-- ==== Sys2Proof/WellFormed.lean ====
section
/-! DEFINITION. The operand bounds the spec puts on an operation, and the one constraint it puts on a
configuration. -/

namespace Sys2Proof

/-- R160: the hardware runs an `EXECUTE` with at most `MAX_GROUPS` payload groups and at most `MAX_WORDS` reply words. -/
def Xact.wellFormed (x : Xact) : Bool :=
  x.payload.length ≤ Config.maxGroups && x.words ≤ Config.maxWords

/-- The operand bounds of R32 (the operand of a request has `ARG_WIDTH` bits, assumption 5), R131 and R136 (`CMD.ASM`),
R134 (`FRAME.VAL`), R160 (`EXECUTE`) and R176 (`HUM.SCALE`). Every other operation takes every operand of its type;
`SETHUM` range-checks its own operand (R177). The meanings of `CMD.ASM`, `FRAME.VAL` and `HUM.SCALE` are total and
do not refuse (assumptions 15, 20, 29), and those of `SETHUM` and `CRC8.UPD` take the bits the request carries. -/
def Instr.wellFormed : Instr → Bool
  | .ident | .feat | .init | .meas | .measRaw | .beginSeq | .crcClr | .crcRd => true
  | .setHum arg | .crcUpd arg => arg < 2 ^ Config.sg33.argWidth
  | .reserved7 | .reservedB | .reservedC | .reservedD | .reservedE | .reservedF => true
  | .crcBit _ | .crcByte _ _ | .crc8 _ | .groupEnc _ | .wordChk _ _ _ | .wordDec _ _ => true
  | .cmdAsm _ payload => payload.length ≤ Config.maxGroups
  | .frameVal w rx => 1 ≤ w && w ≤ Config.maxWords && rx.length == 3 * w
  | .execute x => x.wellFormed
  | .humScale v => v ≤ Config.humMax

/-- The operations that have a host select code (R90). -/
def Instr.hostSelectable : Instr → Bool
  | .ident | .feat | .init | .meas | .measRaw | .setHum _ | .beginSeq => true
  | .crcClr | .crcUpd _ | .crcRd => true
  | .reserved7 | .reservedB | .reservedC | .reservedD | .reservedE | .reservedF => true
  | .crcBit _ | .crcByte _ _ | .crc8 _ | .groupEnc _ | .cmdAsm _ _ => false
  | .wordChk _ _ _ | .wordDec _ _ | .frameVal _ _ | .execute _ | .humScale _ => false

/-- R115: the constants of a configuration give its golden value; `Machine.execIn` and `Machine.stepIn` refuse one whose
constants do not. -/
def Config.wellFormed (c : Config) : Bool :=
  Machine.crc8 c [0xBE#8, 0xEF#8] == c.goldenBeef

end Sys2Proof
end

