-- ==== Sys2Proof/Machine/Commands.lean ====
section
/-! DEFINITION. The meanings of `EXECUTE` (42_transaction.md) and of the command set (43_commands.md): each for any
configuration, and for the one engine that `exec` runs. -/

namespace Sys2Proof.Machine

/-- `IDENT` (R171). -/
def identIn (c : Config) (s : State) : Host.Outcome State Fault Refusal :=
  whenIdle .ident s (.next (s.runJob c .ident))

/-- `FEAT` (R172). -/
def featIn (c : Config) (s : State) : Host.Outcome State Fault Refusal :=
  whenIdle .feat s (.next (s.runJob c .feat))

/-- `INIT` (R173). -/
def initIn (c : Config) (s : State) : Host.Outcome State Fault Refusal :=
  whenIdle .init s (.next (s.runJob c .init))

/-- `MEAS` (R174, R213). -/
def measIn (c : Config) (s : State) : Host.Outcome State Fault Refusal :=
  whenIdle .meas s (whenReady c s (.next (s.runJob c .meas)))

/-- `MEASRAW` (R175, R213). -/
def measRawIn (c : Config) (s : State) : Host.Outcome State Fault Refusal :=
  whenIdle .measRaw s (whenReady c s (.next (s.runJob c .measRaw)))

/-- The operand of `SETHUM` is latched (R28). DESIGN CHOICE: nothing clears it again, so that `ARG` still holds it once
the operation has ended, with success or with any failure, InputRange too; R28 says only that it is not observable
then (assumption 26). -/
def State.latchArg (s : State) (arg : Nat) : State := { s with arg := arg }

/-- `SETHUM` (R177, R213): the range check comes first, on the bits the request carries and whatever `READY` is, and its
failure makes no transport request (R208); the operand has been latched by then and stays in `ARG` (R28,
assumption 26). -/
def setHumIn (c : Config) (arg : Nat) (s : State) : Host.Outcome State Fault Refusal :=
  whenIdle (.setHum arg) s
    (if humInRange (argBits c arg) then
      whenReady c s (.next ((s.latchArg (argBits c arg)).runJob c .setHum))
     else .next ((s.latchArg (argBits c arg)).reply (failResponse .inputRange)))

/-- `BEGIN` (R178). -/
def beginIn (c : Config) (s : State) : Host.Outcome State Fault Refusal :=
  whenIdle .beginSeq s (.next ({ s with substep := .identify }.runJob c .beginSeq))

/-- `EXECUTE` (R150) run by itself: its result is the response (R33); operands beyond the hardware's bounds are
refused (R160). -/
def executeIn (c : Config) (x : Xact) (s : State) : Host.Outcome State Fault Refusal :=
  if s.busy then .refused .engineBusy
  else if x.wellFormed then .next (s.runJob c (.execute x))
  else .refused .operands

/-- The engine just after it has accepted an operation that makes a transaction: in `ASSEMBLE`, nothing done yet
(R157). None where `UNINIT_POLICY` gives the request no meaning (R213), and none for the operations that make no
transaction. DESIGN CHOICE: such an operation is accepted and answered in one transition, with `BUSY` 0 before and
after it, so that no reset lands inside it (R24, R26, assumption 25). -/
def accepted (c : Config) (s : State) : Instr → Option State
  | .ident => some (s.start .ident)
  | .feat => some (s.start .feat)
  | .init => some (s.start .init)
  | .meas => guarded (s.start .meas)
  | .measRaw => guarded (s.start .measRaw)
  | .setHum arg =>
    if humInRange (argBits c arg) then guarded ((s.latchArg (argBits c arg)).start .setHum) else none
  | .beginSeq => some ({ s with substep := .identify }.start .beginSeq)
  | .crcClr | .crcUpd _ | .crcRd => none
  | .reserved7 | .reservedB | .reservedC | .reservedD | .reservedE | .reservedF => none
  | .crcBit _ | .crcByte _ _ | .crc8 _ | .groupEnc _ | .cmdAsm _ _ => none
  | .wordChk _ _ _ | .wordDec _ _ | .frameVal _ _ | .execute _ | .humScale _ => none
where
  guarded (t : State) : Option State :=
    if c.uninitPolicy = .refuse ∧ s.ready = false then none else some t

/-- The state a reset event finds that lands after k more transitions (R231, assumption 11): the operation in progress,
or the transaction of the next request once it is accepted, has gone so far. -/
def State.beforeReset (c : Config) (s : State) (k : Nat) : State :=
  if s.busy then run c k s
  else
    match k, s.fetch with
    | 0, _ => s
    | _ + 1, none => s
    | n + 1, some (r, s') => ((accepted c s' (decodeRequest r)).map (run c n)).getD s

/-- `IDENT` of the engine. -/
def execIdent (s : State) : Host.Outcome State Fault Refusal := identIn Config.sg33 s

/-- `FEAT` of the engine. -/
def execFeat (s : State) : Host.Outcome State Fault Refusal := featIn Config.sg33 s

/-- `INIT` of the engine. -/
def execInit (s : State) : Host.Outcome State Fault Refusal := initIn Config.sg33 s

/-- `MEAS` of the engine. -/
def execMeas (s : State) : Host.Outcome State Fault Refusal := measIn Config.sg33 s

/-- `MEASRAW` of the engine. -/
def execMeasRaw (s : State) : Host.Outcome State Fault Refusal := measRawIn Config.sg33 s

/-- `SETHUM` of the engine. -/
def execSetHum (arg : Nat) (s : State) : Host.Outcome State Fault Refusal :=
  setHumIn Config.sg33 arg s

/-- `BEGIN` of the engine. -/
def execBegin (s : State) : Host.Outcome State Fault Refusal := beginIn Config.sg33 s

/-- `EXECUTE` of the engine. -/
def execExecute (x : Xact) (s : State) : Host.Outcome State Fault Refusal :=
  executeIn Config.sg33 x s

end Sys2Proof.Machine
end

