-- ==== Sys2Proof/Machine/FrameOps.lean ====
section
/-! DEFINITION. The meanings of the framing operations (41_framing.md R130 to R134) and of the humidity scaler
(43_commands.md R176) run by themselves: the result is shown on the record of events, the checksum engine's registers
are left as the computation leaves them, and no architectural state changes (assumptions 14, 15). -/

namespace Sys2Proof.Machine

/-- `GROUP.ENC` (R130). -/
def groupEncIn (c : Config) (p : Word) (s : State) : Host.Outcome State Fault Refusal :=
  .next ((s.setAcc (crc8 c (wordBytes p))).emit (.result (.bytes (groupEnc c p))))

/-- What `CMD.ASM` leaves in `TXBUF`: the frame (R131), if the buffer holds it; else at most the buffer's 5 bytes, of
a free value (R136, assumption 20). -/
def txbufAfterAsm (c : Config) (code : Word) (payload : List Word) : List Byte :=
  if payload.length ≤ Config.maxGroups then cmdAsm c code payload
  else (Config.overlongFrame code payload).take 5

/-- The buffer as `CMD.ASM` leaves it, with the checksum engine's registers as the groups leave them. -/
def State.putFrame (c : Config) (s : State) (code : Word) (payload : List Word) : State :=
  { s with
    txbuf := txbufAfterAsm c code payload
    acc := accAfterGroups c s.acc payload
    bitcnt := bitcntAfter payload.length s.bitcnt }

/-- `CMD.ASM` (R131), defined for every payload (R83): the result is the whole frame, and is placed in `TXBUF`. -/
def cmdAsmIn (c : Config) (code : Word) (payload : List Word) (s : State) :
    Host.Outcome State Fault Refusal :=
  .next ((s.putFrame c code payload).emit (.result (.bytes (cmdAsm c code payload))))

/-- `WORD.CHK` (R132); with `TRACE_EN` it also emits a trace event. DESIGN CHOICE: run by itself the operation has no
frame and no operand for the index that R132 and R219 put in that event; the model's index is 0 (assumption 27). -/
def wordChkIn (c : Config) (b0 b1 k : Byte) (s : State) : Host.Outcome State Fault Refusal :=
  .next ((s.checked c [⟨0, crc8 c [b0, b1], k⟩]).emit (.result (.bit (wordChk c b0 b1 k))))

/-- `WORD.DEC` (R133). -/
def wordDecIn (b0 b1 : Byte) (s : State) : Host.Outcome State Fault Refusal :=
  .next (s.emit (.result (.word (wordDec b0 b1))))

/-- The result of `FRAME.VAL` (R134) over w words, 1 to `MAX_WORDS`, and a frame of exactly 3·w bytes. DESIGN CHOICE: for
all other operands the spec states no result, and it is a free value (assumption 29). -/
def frameResult (c : Config) (w : Nat) (rx : List Byte) : FrameResult :=
  if 1 ≤ w ∧ w ≤ Config.maxWords ∧ rx.length = 3 * w then frameVal c w rx
  else Config.unstatedFrameResult w rx

/-- `FRAME.VAL` (R134), run on every operand. The comparisons are those of the words that are all there, among the first
w of the frame (assumption 29). -/
def frameValIn (c : Config) (w : Nat) (rx : List Byte) (s : State) :
    Host.Outcome State Fault Refusal :=
  .next ((s.checked c (frameChecks c w 0 rx)).emit (.result (.frame (frameResult c w rx))))

/-- `HUM.SCALE` (R176). -/
def humScaleIn (v : Nat) (s : State) : Host.Outcome State Fault Refusal :=
  .next (s.emit (.result (.word (humScale v))))

/-- `GROUP.ENC` of the engine. -/
def execGroupEnc (p : Word) (s : State) : Host.Outcome State Fault Refusal :=
  groupEncIn Config.sg33 p s

/-- `CMD.ASM` of the engine. -/
def execCmdAsm (code : Word) (payload : List Word) (s : State) : Host.Outcome State Fault Refusal :=
  cmdAsmIn Config.sg33 code payload s

/-- `WORD.CHK` of the engine. -/
def execWordChk (b0 b1 c : Byte) (s : State) : Host.Outcome State Fault Refusal :=
  wordChkIn Config.sg33 b0 b1 c s

/-- `WORD.DEC` of the engine. -/
def execWordDec (b0 b1 : Byte) (s : State) : Host.Outcome State Fault Refusal := wordDecIn b0 b1 s

/-- `FRAME.VAL` of the engine. -/
def execFrameVal (w : Nat) (rx : List Byte) (s : State) : Host.Outcome State Fault Refusal :=
  frameValIn Config.sg33 w rx s

/-- `HUM.SCALE` of the engine. -/
def execHumScale (v : Nat) (s : State) : Host.Outcome State Fault Refusal := humScaleIn v s

end Sys2Proof.Machine
end

