-- ==== Sys2Proof/Machine/Reserved.lean ====
section
/-! DEFINITION. The reserved select codes 0x7 and 0xB to 0xF (30_encoding.md R91): the engine answers `ok = 0`,
`cause = 7` at once, with no transport request, no sleep and no state change (assumption 12). -/

namespace Sys2Proof.Machine

/-- R91 and R220: the response Refused. -/
def reservedOp (i : Instr) (s : State) : Host.Outcome State Fault Refusal :=
  whenIdle i s (.next (s.reply (failResponse .refused)))

/-- Select code 0x7. -/
def execReserved7 (s : State) : Host.Outcome State Fault Refusal := reservedOp .reserved7 s

/-- Select code 0xB. -/
def execReservedB (s : State) : Host.Outcome State Fault Refusal := reservedOp .reservedB s

/-- Select code 0xC. -/
def execReservedC (s : State) : Host.Outcome State Fault Refusal := reservedOp .reservedC s

/-- Select code 0xD. -/
def execReservedD (s : State) : Host.Outcome State Fault Refusal := reservedOp .reservedD s

/-- Select code 0xE. -/
def execReservedE (s : State) : Host.Outcome State Fault Refusal := reservedOp .reservedE s

/-- Select code 0xF. -/
def execReservedF (s : State) : Host.Outcome State Fault Refusal := reservedOp .reservedF s

end Sys2Proof.Machine
end

