-- ==== Sys2Proof/Machine/Dispatch.lean ====
section
/-! DEFINITION. One arm per operation. -/

namespace Sys2Proof.Machine

def exec (i : Instr) (s : State) : Host.Outcome State Fault Refusal :=
  match i with
  | .ident => Sys2Proof.Machine.execIdent s
  | .feat => Sys2Proof.Machine.execFeat s
  | .init => Sys2Proof.Machine.execInit s
  | .meas => Sys2Proof.Machine.execMeas s
  | .measRaw => Sys2Proof.Machine.execMeasRaw s
  | .setHum arg => Sys2Proof.Machine.execSetHum arg s
  | .beginSeq => Sys2Proof.Machine.execBegin s
  | .crcClr => Sys2Proof.Machine.execCrcClr s
  | .crcUpd arg => Sys2Proof.Machine.execCrcUpd arg s
  | .crcRd => Sys2Proof.Machine.execCrcRd s
  | .reserved7 => Sys2Proof.Machine.execReserved7 s
  | .reservedB => Sys2Proof.Machine.execReservedB s
  | .reservedC => Sys2Proof.Machine.execReservedC s
  | .reservedD => Sys2Proof.Machine.execReservedD s
  | .reservedE => Sys2Proof.Machine.execReservedE s
  | .reservedF => Sys2Proof.Machine.execReservedF s
  | .crcBit a => Sys2Proof.Machine.execCrcBit a s
  | .crcByte a b => Sys2Proof.Machine.execCrcByte a b s
  | .crc8 data => Sys2Proof.Machine.execCrc8 data s
  | .groupEnc p => Sys2Proof.Machine.execGroupEnc p s
  | .cmdAsm code payload => Sys2Proof.Machine.execCmdAsm code payload s
  | .wordChk b0 b1 c => Sys2Proof.Machine.execWordChk b0 b1 c s
  | .wordDec b0 b1 => Sys2Proof.Machine.execWordDec b0 b1 s
  | .frameVal w rx => Sys2Proof.Machine.execFrameVal w rx s
  | .execute x => Sys2Proof.Machine.execExecute x s
  | .humScale v => Sys2Proof.Machine.execHumScale v s

end Sys2Proof.Machine
end

