-- ==== Sys2Proof/Machine/Engine.lean ====
section
/-! DEFINITION. The engine with any configuration (00_scope.md R8): what each operation does, and one step; a
configuration that breaks the golden constraint is refused (40_checksum.md R115). `exec` and `step` are the two at the
spec's defaults, `Config.sg33`, which meet it. -/

namespace Sys2Proof.Machine

/-- What the operation i does in an engine with configuration c. -/
def operationIn (c : Config) (i : Instr) (s : State) : Host.Outcome State Fault Refusal :=
  match i with
  | .ident => identIn c s
  | .feat => featIn c s
  | .init => initIn c s
  | .meas => measIn c s
  | .measRaw => measRawIn c s
  | .setHum arg => setHumIn c arg s
  | .beginSeq => beginIn c s
  | .crcClr => crcClrIn c s
  | .crcUpd arg => crcUpdIn c arg s
  | .crcRd => crcRdIn s
  | .reserved7 => reservedOp .reserved7 s
  | .reservedB => reservedOp .reservedB s
  | .reservedC => reservedOp .reservedC s
  | .reservedD => reservedOp .reservedD s
  | .reservedE => reservedOp .reservedE s
  | .reservedF => reservedOp .reservedF s
  | .crcBit a => crcBitIn c a s
  | .crcByte a b => crcByteIn c a b s
  | .crc8 data => crc8In c data s
  | .groupEnc p => groupEncIn c p s
  | .cmdAsm code payload => cmdAsmIn c code payload s
  | .wordChk b0 b1 k => wordChkIn c b0 b1 k s
  | .wordDec b0 b1 => wordDecIn b0 b1 s
  | .frameVal w rx => frameValIn c w rx s
  | .execute x => executeIn c x s
  | .humScale v => humScaleIn v s

/-- R115: o, of an engine with configuration c, where the constants of c give its golden value; otherwise the
configuration is refused. -/
def whenGolden (c : Config) (o : Host.Outcome State Fault Refusal) : Host.Outcome State Fault Refusal :=
  if c.wellFormed then o else .refused .configuration

/-- The operation i of an engine with configuration c. -/
def execIn (c : Config) (i : Instr) (s : State) : Host.Outcome State Fault Refusal :=
  whenGolden c (operationIn c i s)

/-- One step of an engine with configuration c whose operations are `ops`. The reset input wins (R231), after the
transitions it lets the engine make. With `BUSY = 1` the engine goes on until it waits or is idle, and a request stays
held (R236); a wait without an answer stays as it is (R55, R238). With `BUSY = 0` the next request is decoded and
run; without one the engine stays idle (R230). -/
def stepWith (c : Config) (ops : Instr → State → Host.Outcome State Fault Refusal) (s : State) :
    Host.Outcome State Fault Refusal :=
  match s.rst with
  | some k => .next ((s.beforeReset c k).resetEvent c)
  | none =>
    if !s.sequencerOk then .fault .sequencer
    else if s.busy then .next (settleDown c s)
    else
      match s.fetch with
      | none => .next s
      | some (r, s') => ops (decodeRequest r) s'

/-- One step of an engine with configuration c. -/
def stepIn (c : Config) (s : State) : Host.Outcome State Fault Refusal :=
  whenGolden c (stepWith c (operationIn c) s)

end Sys2Proof.Machine
end

