-- ==== Sys2Proof/Machine/Step.lean ====
section
/-! DEFINITION. One step of the engine `exec` is the operations of. -/

namespace Sys2Proof.Machine

/-- One step of the engine with the spec's default parameters. -/
def step (s : State) : Host.Outcome State Fault Refusal := stepWith Config.sg33 exec s

/-- s with the request of a table word at the head of the host channel, and the engine idle so that it accepts it
(assumption 19). A word that stands for no request leaves s as it is. -/
def State.withFetchWord (s : State) (nbits w : Nat) : State :=
  match tableRequest nbits w with
  | some r =>
    { s with rst := none, busy := false, phase := .idle, job := none, pending := none, reqs := r :: s.reqs }
  | none => s

end Sys2Proof.Machine
end

