-- ==== Sys2Proof/Machine/Agents.lean ====
section
/-! DEFINITION. The agents of the model (00_scope.md R7): which of them has an enabled step, and the steps of the three
outside the engine, whose own step is `step`. -/

namespace Sys2Proof.Machine

/-- The four agents of R7. -/
inductive Agent where
  | host | engine | transport | delay
  deriving DecidableEq, Repr

/-- `WRITE` without an answer: the transport has a write request to answer (R51). -/
def State.writeOutstanding (s : State) : Bool := s.phase == .write && s.writeAnswers.isEmpty

/-- `SETTLE` without an answer: the delay primitive has a sleep request to answer (R57). -/
def State.sleepOutstanding (s : State) : Bool := s.phase == .settle && s.wakeups == 0

/-- `READ` without an answer: the transport has a read request to answer (R52). -/
def State.readOutstanding (s : State) : Bool := s.phase == .read && s.readAnswers.isEmpty

/-- Whether an agent has an enabled step (R7). The host has none while `BUSY = 1` (R236) and none while a request of its
own has not been accepted: it issues one operation at a time. The transport and the delay primitive answer a request
that is outstanding, and do nothing else (R50). The engine goes on with an operation in progress where a transition
is enabled, and accepts a request that is presented.
DESIGN CHOICE: no request is outstanding once a reset event has put `PHASE` to `IDLE`, so that an answer which the
transport or the delay primitive still owed then does not come, and one that had come is dropped
(`State.resetEvent`); R231 says only that the request is not recalled (assumption 28). -/
def State.enabled (c : Config) (s : State) : Agent → Bool
  | .host => !s.busy && s.reqs.isEmpty
  | .engine => if s.busy then (advance c s).isSome else !s.reqs.isEmpty
  | .transport => s.writeOutstanding || s.readOutstanding
  | .delay => s.sleepOutstanding

/-- What comes to the engine from outside: the host presents a request, the transport or the delay primitive gives an
answer (R7), the reset input is asserted (R35). -/
inductive Input where
  | request (r : Request)
  | writeAnswer (ok : Bool)
  | wakeup
  | readAnswer (a : Option (List Byte))
  | reset (k : Nat)
  deriving DecidableEq, Repr

/-- When an input can come: a request or an answer as R7 has it, a reset at any moment (R231). -/
def Input.enabled (s : State) : Input → Bool
  | .request _ => !s.busy && s.reqs.isEmpty
  | .writeAnswer _ => s.writeOutstanding
  | .wakeup => s.sleepOutstanding
  | .readAnswer _ => s.readOutstanding
  | .reset _ => true

/-- What an input puts on the input ports; it changes nothing else (R50). -/
def State.receive (s : State) : Input → State
  | .request r => { s with reqs := s.reqs ++ [r] }
  | .writeAnswer ok => { s with writeAnswers := s.writeAnswers ++ [ok] }
  | .wakeup => { s with wakeups := s.wakeups + 1 }
  | .readAnswer a => { s with readAnswers := s.readAnswers ++ [a] }
  | .reset k => { s with rst := some k }

/-- One step of an agent outside the engine, or of the reset input; none where it is not enabled. -/
def State.input (s : State) (i : Input) : Option State :=
  if i.enabled s then some (s.receive i) else none

/-- The agent whose step an input is; the reset input is none of the four. -/
def Input.agent : Input → Option Agent
  | .request _ => some .host
  | .writeAnswer _ | .readAnswer _ => some .transport
  | .wakeup => some .delay
  | .reset _ => none

end Sys2Proof.Machine
end

