-- ==== Sys2Proof/Safety.lean ====
section
/-! DEFINITION. The terms claims are stated in: the invariant of the engine, what two states share, the kinds of
events, the transport events an operation makes in the order it makes them and those it has still to make, and what
the trace port shows of a reply. -/

namespace Sys2Proof.Machine

/-- What holds of an engine with configuration c between two steps. -/
structure State.Inv (c : Config) (s : State) : Prop where
  /-- R26, R157: `BUSY`, `PHASE`, the operation in progress and the pending result fit together. -/
  sequencer : s.sequencerOk = true
  /-- R55, R157: between two steps the engine is idle or waits for an outside answer. -/
  waiting : s.phase = .idle ∨ s.phase = .write ∨ s.phase = .settle ∨ s.phase = .read
  /-- R29, R136: `TXBUF` holds at most 5 bytes. -/
  txBound : s.txbuf.length ≤ 5
  /-- R30, R136: `RXBUF` holds at most 9 bytes. -/
  rxBound : s.rxbuf.length ≤ 9
  /-- R29, R30: the buffers hold nothing between two operations. -/
  idleEmpty : s.phase = .idle → s.txbuf = [] ∧ s.rxbuf = []
  /-- R151: while a transaction waits, `TXBUF` holds the frame of its command. -/
  frame : ∀ j, s.job = some j →
    s.txbuf = cmdAsm c (j.xact s.substep s.arg).code (j.xact s.substep s.arg).payload
  /-- R154: a read is waited for only by a transaction with reply words. -/
  readWords : ∀ j, s.job = some j → s.phase = .read → 1 ≤ (j.xact s.substep s.arg).words
  /-- R160: an `EXECUTE` in progress is within the hardware's bounds. -/
  bounds : ∀ x, s.job = some (.execute x) → x.wellFormed = true
  /-- R28: `ARG` has `ARG_WIDTH` bits. -/
  argWidth : s.arg < 2 ^ c.argWidth
  /-- R177: the operand of a `SETHUM` in progress has passed the range check. -/
  inRange : s.job = some .setHum → humInRange s.arg = true

/-- The four result registers are the same (R21). -/
def SameResults (s t : State) : Prop :=
  t.eco2 = s.eco2 ∧ t.tvoc = s.tvoc ∧ t.rawH2 = s.rawH2 ∧ t.rawEth = s.rawEth

/-- The architectural state is the same (R20). -/
def SameArch (s t : State) : Prop :=
  SameResults s t ∧ t.ready = s.ready ∧ t.cacc = s.cacc

/-- The input ports are the same, the request channel included (R32, R35). -/
def SameInputs (s t : State) : Prop :=
  t.rst = s.rst ∧ t.reqs = s.reqs ∧ t.writeAnswers = s.writeAnswers ∧ t.wakeups = s.wakeups ∧
    t.readAnswers = s.readAnswers

/-- A request to the transport or to the delay primitive (R50, R57). -/
def Event.isRequest : Event → Bool
  | .write _ _ | .sleep _ | .read _ _ => true
  | .response _ | .trace _ _ _ | .result _ => false

/-- A response (R33). -/
def Event.isResponse : Event → Bool
  | .response _ => true
  | .write _ _ | .sleep _ | .read _ _ | .trace _ _ _ | .result _ => false

/-- A trace event (R219). -/
def Event.isTrace : Event → Bool
  | .trace _ _ _ => true
  | .write _ _ | .sleep _ | .read _ _ | .response _ | .result _ => false

/-- The requests of one whole `EXECUTE` in the binding order write, sleep, read (R63, R158). -/
def xactScript (c : Config) (x : Xact) : List Event :=
  [.write c.busAddr (cmdAsm c x.code x.payload), .sleep x.settle] ++
    (if x.words = 0 then [] else [.read c.busAddr (3 * x.words)])

/-- The requests of a whole operation in order (R63; R178 (c) for `BEGIN`); none for the operations that make none. -/
def script (c : Config) : Instr → List Event
  | .ident => xactScript c xactIdent
  | .feat => xactScript c xactFeat
  | .init => xactScript c xactInit
  | .meas => xactScript c xactMeas
  | .measRaw => xactScript c xactMeasRaw
  | .setHum arg =>
    if humInRange (argBits c arg) then xactScript c (xactSetHum (humScale (argBits c arg))) else []
  | .beginSeq => xactScript c xactIdent ++ xactScript c xactFeat ++ xactScript c xactInit
  | .execute x => xactScript c x
  | .crcClr | .crcUpd _ | .crcRd => []
  | .reserved7 | .reservedB | .reservedC | .reservedD | .reservedE | .reservedF => []
  | .crcBit _ | .crcByte _ _ | .crc8 _ | .groupEnc _ | .cmdAsm _ _ => []
  | .wordChk _ _ _ | .wordDec _ _ | .frameVal _ _ | .humScale _ => []

/-- The first (of `BEGIN`) or only `EXECUTE` of an operation, by the table of R170. -/
def firstXact (c : Config) : Instr → Option Xact
  | .ident | .beginSeq => some ⟨0x3682#16, [], 10, 3⟩
  | .feat => some ⟨0x202F#16, [], 10, 1⟩
  | .init => some ⟨0x2003#16, [], 10, 0⟩
  | .meas => some ⟨0x2008#16, [], 12, 2⟩
  | .measRaw => some ⟨0x2050#16, [], 25, 2⟩
  | .setHum arg =>
    if humInRange (argBits c arg) then some ⟨0x2061#16, [humScale (argBits c arg)], 10, 0⟩ else none
  | .execute x => if x.wellFormed then some x else none
  | .crcClr | .crcUpd _ | .crcRd => none
  | .reserved7 | .reservedB | .reservedC | .reservedD | .reservedE | .reservedF => none
  | .crcBit _ | .crcByte _ _ | .crc8 _ | .groupEnc _ | .cmdAsm _ _ => none
  | .wordChk _ _ _ | .wordDec _ _ | .frameVal _ _ | .humScale _ => none

/-- How many of its requests a transaction has made when it is in this phase (R157). -/
def Phase.requestsMade : Phase → Nat
  | .idle | .assemble => 0
  | .write => 1
  | .settle => 2
  | .read | .verify | .respond => 3

/-- The requests of the substeps of `BEGIN` that come after this one (R178). -/
def laterSubsteps (c : Config) : Substep → List Event
  | .identify => xactScript c xactFeat ++ xactScript c xactInit
  | .readFeatures => xactScript c xactInit
  | .initMeas => []

/-- The requests the operation in progress has still to make (R63, R178 (c)). -/
def State.remaining (c : Config) (s : State) : List Event :=
  match s.job with
  | none => []
  | some j =>
    (xactScript c (j.xact s.substep s.arg)).drop s.phase.requestsMade ++
      (if j = .beginSeq then laterSubsteps c s.substep else [])

/-- The engine waits for an answer that has not come (R55). -/
def State.awaitsAnswer (s : State) : Prop :=
  s.phase = .write ∧ s.writeAnswers = [] ∨ s.phase = .settle ∧ s.wakeups = 0 ∨
    s.phase = .read ∧ s.readAnswers = []

/-- The engine went from s to t on an operation that had the requests `todo` to make. Either it waits for an answer that
has not come, and the requests made and those still to make are `todo`; or the operation is over, with one response
as its last event, and the requests made are a first part of `todo`, all of it if the response is a success. -/
def Progress (c : Config) (todo : List Event) (s t : State) : Prop :=
  ∃ new, t.out = s.out ++ new ∧
    ((t.busy = true ∧ t.awaitsAnswer ∧ new.filter Event.isResponse = [] ∧
        new.filter Event.isRequest ++ t.remaining c = todo) ∨
      (t.busy = false ∧ new.filter Event.isRequest <+: todo ∧
        ∃ r pre, new = pre ++ [.response r] ∧ pre.filter Event.isResponse = [] ∧
          (r.ok = true → new.filter Event.isRequest = todo)))

/-- What an operation from s came to, o, is a failure with the cause after these events (R206): nothing is stored, `CACC`
stays, `READY` too unless the operation is `BEGIN`, which ends with 0; the engine is idle, the response has no words,
and these answers are left. -/
def FailsWith (o : Host.Outcome State Fault Refusal) (s : State) (isBegin : Prop)
    (events : List Event) (cause : Cause) (ws : List Bool) (n : Nat)
    (rs : List (Option (List Byte))) : Prop :=
  ∃ t, o = .next t ∧ SameResults s t ∧ t.cacc = s.cacc ∧
    (isBegin → t.ready = false) ∧ (¬ isBegin → t.ready = s.ready) ∧
    t.busy = false ∧ t.phase = .idle ∧ t.writeAnswers = ws ∧ t.wakeups = n ∧ t.readAnswers = rs ∧
    t.out = s.out ++ events ++ [.response ⟨false, cause, []⟩]

/-- The requests a transaction makes once its sleep has been requested: the read, if the sleep is answered and there
are reply words (R158). -/
def requestsAfterSleep (c : Config) (x : Xact) (s : State) : List Event :=
  if 0 < s.wakeups ∧ 1 ≤ x.words then [.read c.busAddr (3 * x.words)] else []

/-- The requests a transaction makes once its write has been requested: the sleep, if the write is answered `ok`, and
what comes after it (R158). -/
def requestsAfterWrite (c : Config) (x : Xact) (s : State) : List Event :=
  if s.writeAnswers.head? = some true then .sleep x.settle :: requestsAfterSleep c x s else []

/-- What an operation from s came to, o, is that it has ended with the response r after these events, with the
architectural state as it was, the engine idle, the buffers discarded (assumption 16), and these answers left. -/
def EndsWith (o : Host.Outcome State Fault Refusal) (s : State) (events : List Event) (r : Response)
    (ws : List Bool) (n : Nat) (rs : List (Option (List Byte))) : Prop :=
  ∃ t, o = .next t ∧ SameArch s t ∧ t.busy = false ∧ t.phase = .idle ∧ t.txbuf = [] ∧ t.rxbuf = [] ∧
    t.writeAnswers = ws ∧ t.wakeups = n ∧ t.readAnswers = rs ∧ t.out = s.out ++ events ++ [.response r]

/-- What an operation from s came to, o, is that after these events it waits in this phase, the operation j in its substep
u, with the architectural state as it was and these answers left (R55). -/
def WaitsIn (o : Host.Outcome State Fault Refusal) (s : State) (j : Job) (u : Substep) (phase : Phase)
    (events : List Event) (ws : List Bool) (n : Nat) (rs : List (Option (List Byte))) : Prop :=
  ∃ t, o = .next t ∧ SameArch s t ∧ t.busy = true ∧ t.job = some j ∧ t.substep = u ∧ t.phase = phase ∧
    t.writeAnswers = ws ∧ t.wakeups = n ∧ t.readAnswers = rs ∧ t.out = s.out ++ events

/-- The transaction in progress waits, and the answers to its write and its sleep that had not come are there and good
(R152, R153); ws and n are what is left of them when it has taken its own. -/
def State.restAnswered (s : State) (ws : List Bool) (n : Nat) : Prop :=
  s.phase = .write ∧ s.writeAnswers = true :: ws ∧ s.wakeups = n + 1 ∨
    s.phase = .settle ∧ s.writeAnswers = ws ∧ s.wakeups = n + 1 ∨
    s.phase = .read ∧ s.writeAnswers = ws ∧ s.wakeups = n

/-- Every answer that stands in a queue is the answer to the request the engine waits with: none was given ahead of its
request, and none is left from a request before (R50, R57). -/
def State.ownAnswers (s : State) : Prop :=
  s.writeAnswers.length ≤ (if s.phase = .write then 1 else 0) ∧
    s.wakeups ≤ (if s.phase = .settle then 1 else 0) ∧
    s.readAnswers.length ≤ (if s.phase = .read then 1 else 0)

/-- s with these answers behind those that are there (R50, R57). -/
def State.moreAnswers (s : State) (ws : List Bool) (n : Nat) (rs : List (Option (List Byte))) : State :=
  { s with
    writeAnswers := s.writeAnswers ++ ws, wakeups := s.wakeups + n
    readAnswers := s.readAnswers ++ rs }

/-- How many words of a reply are checked: all of them, or those up to the first that does not verify (R134, R219). -/
def checkedWords (c : Config) (w : Nat) (rx : List Byte) : Nat :=
  match frameVal c w rx with
  | .ok _ => w
  | .corrupt j => j + 1

/-- What the trace port shows of a reply of w words (R219): for each word checked its index, the checksum computed over
its two data bytes and the checksum byte received; nothing when `TRACE_EN` is false. -/
def shownChecks (c : Config) (w : Nat) (rx : List Byte) : List Event :=
  if c.traceEn then
    (List.range (checkedWords c w rx)).map fun i =>
      .trace i (crc8 c [rx.getD (3 * i) 0, rx.getD (3 * i + 1) 0]) (rx.getD (3 * i + 2) 0)
  else []

/-- The transaction-making operation an instruction starts. -/
def Instr.toJob : Instr → Option Job
  | .ident => some .ident
  | .feat => some .feat
  | .init => some .init
  | .meas => some .meas
  | .measRaw => some .measRaw
  | .setHum _ => some .setHum
  | .beginSeq => some .beginSeq
  | .execute x => some (.execute x)
  | .crcClr | .crcUpd _ | .crcRd => none
  | .reserved7 | .reservedB | .reservedC | .reservedD | .reservedE | .reservedF => none
  | .crcBit _ | .crcByte _ _ | .crc8 _ | .groupEnc _ | .cmdAsm _ _ => none
  | .wordChk _ _ _ | .wordDec _ _ | .frameVal _ _ | .humScale _ => none

/-- The operation a step from s works on: the one in progress, or else the one the next request names. -/
def State.worksOn (s : State) (j : Job) : Prop :=
  (s.busy = true ∧ s.job = some j) ∨
    (s.busy = false ∧ ∃ r rs, s.reqs = r :: rs ∧ Instr.toJob (decodeRequest r) = some j)

/-- s without the trace events of its record. -/
def State.eraseTrace (s : State) : State := { s with out := s.out.filter fun e => !e.isTrace }

end Sys2Proof.Machine
end

