-- ==== Sys2Proof/Certificates/Slice0/Obligations.lean ====
section
/-! DEFINITION. The statements for the provers. Where a statement rests on a choice of the model or on a decision the
spec marks as its own, its docstring names the entry of notes/assumptions or the decision of
spec/92_eei_decisions.md. -/

open Sys2Proof Sys2Proof.Machine

/-! ### Reset, the step, and the whole machine -/

/-- R38, R230: reset leaves the engine idle and Uninitialized, with the values the spec gives (decisions D2, D15, D16,
D30). That the two buffers are empty is the model's choice, R38 calls them unspecified (assumption 8); that no event
is recorded and no request presented is the model's too (assumptions 10, 13). -/
def Obligations.ResetStateIsIdleAndUninitialized : Prop :=
  State.reset.ready = false ∧ State.reset.busy = false ∧ State.reset.phase = .idle ∧
    State.reset.substep.value = 0 ∧ State.reset.cacc = Config.sg33.init ∧
    State.reset.txbuf = [] ∧ State.reset.rxbuf = [] ∧ State.reset.out = [] ∧ State.reset.reqs = []

/-- The state after reset meets the invariant, for the engine's configuration and for every other (the empty buffers are
assumption 8). -/
def Obligations.ResetMeetsInvariant : Prop :=
  State.reset.Inv Config.sg33 ∧ ∀ (c : Config) (n : Nat), (State.fresh c n).Inv c

/-- From a state that meets the invariant every step of the engine answers a next state, no fault and no refusal, and that
state meets the invariant; with any other configuration a step that answers a next state keeps it (it may refuse under
the policy `refuse`, R213); and so does every step of an agent outside the engine. -/
def Obligations.StepKeepsInvariant : Prop :=
  (∀ s : State, s.Inv Config.sg33 → ∃ t, step s = .next t ∧ t.Inv Config.sg33) ∧
    (∀ (c : Config) (s t : State), s.Inv c → stepIn c s = .next t → t.Inv c) ∧
    ∀ (c : Config) (s t : State) (i : Input), s.Inv c → s.input i = some t → t.Inv c

/-- R7, R236, R50: at any moment exactly one of the four agents of an engine whose configuration is not refused (R115) has an
enabled step; it is the engine exactly when its step changes the state or stops; an agent that is not enabled gives no
input, an input changes nothing but the input ports, and after a request or an answer it is the engine's turn. (A reset
is an event of none of the four: R231.) And from reset on, every answer that is given is the answer to the request the
engine waits with, and stays so: no step, a reset among them (assumption 28), leaves one behind for a later request. -/
def Obligations.ExactlyOneAgentIsEnabled : Prop :=
  (∀ (c : Config) (s : State), c.wellFormed = true → s.sequencerOk = true →
    (∃ a, s.enabled c a = true ∧ ∀ b, s.enabled c b = true → b = a) ∧
    (s.rst = none → (s.enabled c .engine = true ↔ stepIn c s ≠ .next s)) ∧
    ∀ i : Input,
      (∀ a, i.agent = some a → s.enabled c a = false → s.input i = none) ∧
      ∀ t, s.input i = some t →
        t = { s with
          rst := t.rst, reqs := t.reqs, writeAnswers := t.writeAnswers, wakeups := t.wakeups
          readAnswers := t.readAnswers } ∧
        (∀ a, i.agent = some a → t.rst = s.rst ∧ t.enabled c .engine = true)) ∧
  (∀ (c : Config) (n : Nat), (State.fresh c n).ownAnswers) ∧
  (∀ (c : Config) (s t : State), s.ownAnswers → stepIn c s = .next t → t.ownAnswers) ∧
  ∀ (s t : State) (i : Input), s.ownAnswers → s.input i = some t → t.ownAnswers

/-- R32, R90, R230: an idle engine runs exactly the operation its next request names, whatever the request, the operand
ignored by every operation but `SETHUM` and `CRC8.UPD`; and without a request it stays as it is. -/
def Obligations.StepRunsTheEncodedInstruction : Prop :=
  (∀ (i : Instr) (r : Request) (rs : List Request) (s : State),
      (encode i = some r ∨ decodeRequest r = i) →
      s.rst = none → s.sequencerOk = true → s.busy = false → s.reqs = r :: rs →
      step s = exec i { s with reqs := rs }) ∧
    (∀ (op : Op) (a b : Nat) (rs : List Request) (s : State), op ≠ 0x5#4 → op ≠ 0x9#4 →
      s.rst = none → s.busy = false →
      step { s with reqs := ⟨op, a⟩ :: rs } = step { s with reqs := ⟨op, b⟩ :: rs }) ∧
    ∀ s : State, s.rst = none → s.sequencerOk = true → s.busy = false → s.reqs = [] →
      step s = .next s

/-- R231 (decision D26): wherever a reset lands, it abandons what is in progress: no response has been issued for an
operation that has not ended, no result register holds anything but a reset value, no transport request is made, and
the state is the reset state; the host's requests not yet accepted stay presented (assumptions 11, 17), and no answer
stays behind for a later request (assumption 28). -/
def Obligations.ResetEventAbandonsTheOperation : Prop :=
  ∀ (s : State) (k : Nat), s.rst = some k →
    ∃ t new, step s = .next t ∧ t.Inv Config.sg33 ∧
      t.ready = false ∧ t.busy = false ∧ t.phase = .idle ∧ t.substep.value = 0 ∧
      t.cacc = Config.sg33.init ∧ t.rst = none ∧ t.resets = (s.beforeReset Config.sg33 k).resets + 1 ∧
      SameResults (State.fresh Config.sg33 t.resets) t ∧
      t.writeAnswers = [] ∧ t.wakeups = 0 ∧ t.readAnswers = [] ∧
      t.out = s.out ++ new ∧ (s.beforeReset Config.sg33 k).out = s.out ++ new ∧
      ((s.beforeReset Config.sg33 k).busy = true → new.filter Event.isResponse = []) ∧
      (k = 0 → new = [] ∧ t.reqs = s.reqs)

/-- R236 (decision D16): while `BUSY = 1` no request is accepted, lost or answered: a step leaves the requests as they
are, and a host operation presented to the busy engine is held at the head of them and changes nothing else. -/
def Obligations.RequestWhileBusyIsHeld : Prop :=
  (∀ s : State, s.rst = none → s.sequencerOk = true → s.busy = true →
      ∃ t, step s = .next t ∧ t.reqs = s.reqs) ∧
    ∀ (i : Instr) (r : Request) (s : State), encode i = some r → s.busy = true →
      exec i s = .next { s with reqs := r :: s.reqs }

/-- R55, R238 (decision D28): the engine waits where an answer has not come, whatever has been answered well before, in the
step that accepts an operation and in one that goes on with it, in every substep of `BEGIN`; and an unanswered request
hangs it: the step leaves every piece of state as it is. -/
def Obligations.UnansweredRequestWaitsForEver : Prop :=
  (∀ s : State, s.rst = none → s.sequencerOk = true → s.awaitsAnswer → step s = .next s) ∧
    (∀ (i : Instr) (j : Job) (x : Xact) (s : State), firstXact Config.sg33 i = some x →
      Instr.toJob i = some j → s.busy = false →
      let u := if i = .beginSeq then Substep.identify else s.substep
      let write : Event := .write Config.sg33.busAddr (cmdAsm Config.sg33 x.code x.payload)
      (s.writeAnswers = [] →
        WaitsIn (exec i s) s j u .write [write] [] s.wakeups s.readAnswers) ∧
      ∀ ws, s.writeAnswers = true :: ws →
        (s.wakeups = 0 → WaitsIn (exec i s) s j u .settle [write, .sleep x.settle] ws 0 s.readAnswers) ∧
        ∀ n, s.wakeups = n + 1 → 1 ≤ x.words → s.readAnswers = [] →
          WaitsIn (exec i s) s j u .read
            [write, .sleep x.settle, .read Config.sg33.busAddr (3 * x.words)] ws n []) ∧
    ∀ (j : Job) (s : State) (ws : List Bool), s.Inv Config.sg33 → s.rst = none → s.job = some j →
      let x := j.xact s.substep s.arg
      (s.phase = .write → s.writeAnswers = true :: ws → s.wakeups = 0 →
        WaitsIn (step s) s j s.substep .settle [.sleep x.settle] ws 0 s.readAnswers) ∧
      ∀ n, s.wakeups = n + 1 → 1 ≤ x.words → s.readAnswers = [] →
        (s.phase = .write → s.writeAnswers = true :: ws →
          WaitsIn (step s) s j s.substep .read
            [.sleep x.settle, .read Config.sg33.busAddr (3 * x.words)] ws n []) ∧
        (s.phase = .settle →
          WaitsIn (step s) s j s.substep .read [.read Config.sg33.busAddr (3 * x.words)]
            s.writeAnswers n [])

/-- R157 (decision D2): the only transitions between phases, whatever the configuration. -/
def Obligations.PhaseTransitionsAreThoseOfTheTable : Prop :=
  ∀ (c : Config) (s t : State), advance c s = some t →
    (s.phase, t.phase) ∈
      [(.assemble, .write), (.write, .settle), (.write, .respond), (.settle, .respond),
        (.settle, .read), (.read, .verify), (.read, .respond), (.verify, .respond),
        (.respond, .idle), (.respond, .assemble)]

/-- R157 and assumptions 9, 11: a run of the engine ends only where it is idle or waits for an answer that has not come, from
any state and for any configuration; and answers that come while it waits do what they do when they stand in the
queues beforehand, for the step that accepts an operation and for one that goes on with it. -/
def Obligations.RunEndsOnlyIdleOrWaiting : Prop :=
  (∀ (c : Config) (s : State), advance c (settleDown c s) = none) ∧
    (∀ (i : Instr) (s t : State) (ws : List Bool) (n : Nat) (rs : List (Option (List Byte))),
      s.rst = none → s.busy = false → exec i s = .next t → t.busy = true →
      step (t.moreAnswers ws n rs) = exec i (s.moreAnswers ws n rs)) ∧
    ∀ (s t : State) (ws : List Bool) (n : Nat) (rs : List (Option (List Byte))),
      s.rst = none → s.sequencerOk = true → s.busy = true → step s = .next t → t.busy = true →
      step (t.moreAnswers ws n rs) = step (s.moreAnswers ws n rs)

/-! ### Encoding -/

/-- R90, R32: the request of every operation with a select code names that operation again, whatever its operand, and
only the internal operations have none; every request is that of the operation it names, an ignored operand apart. -/
def Obligations.RequestsDecodeToWhatTheyEncode : Prop :=
  (∀ i : Instr, ((encode i).isSome = i.hostSelectable) ∧
      ∀ r, encode i = some r → decodeRequest r = i) ∧
    ∀ r : Request, ∃ q, encode (decodeRequest r) = some q ∧ q.op = r.op ∧
      (q.arg = r.arg ∨ q.arg = 0 ∧ r.op ≠ 0x5#4 ∧ r.op ≠ 0x9#4)

/-- R95: a command's frame decodes to the command, for every configuration; a `SETHUM` frame, which carries only the
scaled operand, decodes to a `SETHUM` in range with the same frame (assumption 18). -/
def Obligations.CommandFramesDecodeToTheirCommand : Prop :=
  ∀ (c : Config) (i : Instr) (f : List Byte), encodeFrame c i = some f →
    ∃ i', decodeFrame c f = .ok i' ∧ encodeFrame c i' = some f ∧
      (i' = i ∨ ∃ a a', i = .setHum a ∧ i' = .setHum a' ∧ a' < 2 ^ c.argWidth ∧
        humInRange a' = true ∧ humScale a' = humScale (argBits c a))

/-- R95: a byte sequence that decodes is the frame of the command it decodes to: every other one is rejected. -/
def Obligations.OnlyCommandFramesDecode : Prop :=
  ∀ (c : Config) (f : List Byte) (i : Instr), decodeFrame c f = .ok i → encodeFrame c i = some f

/-- R89, R90: words written out from the tables of the spec. -/
def Obligations.WrittenWordsDecode : Prop :=
  decodeTableWord 16 0x3682 = some .ident ∧ decodeTableWord 16 0x202F = some .feat ∧
    decodeTableWord 16 0x2003 = some .init ∧ decodeTableWord 16 0x2008 = some .meas ∧
    decodeTableWord 16 0x2050 = some .measRaw ∧ decodeTableWord 8 0x6 = some .beginSeq ∧
    decodeTableWord 8 0x8 = some .crcClr ∧ decodeTableWord 8 0x7 = some .reserved7 ∧
    decodeTableWord 16 0x8236 = none

/-- R81, R82, R89: an idle engine whose command is not turned away first puts exactly the command's frame on the
transport, at the peripheral's address. -/
def Obligations.CommandsWriteTheirFrame : Prop :=
  ∀ (i : Instr) (f : List Byte) (s : State), encodeFrame Config.sg33 i = some f → s.busy = false →
    ∃ t new, exec i s = .next t ∧ t.out = s.out ++ .write Config.sg33.busAddr f :: new

/-! ### The checksum engine -/

/-- R111: the bit step with its corner cases, for every polynomial. -/
def Obligations.BitStepShiftsAndXorsThePolynomial : Prop :=
  (∀ poly a : Byte,
      crcBit poly a = (a.extractLsb' 0 7 ++ 0#1) ^^^ (if a.getLsbD 7 then poly else 0#8)) ∧
    (∀ poly : Byte, crcBit poly 0x00#8 = 0x00#8 ∧ crcBit poly 0x80#8 = poly) ∧
    ∀ poly a : Byte, a < 0x80#8 → (crcBit poly a).toNat = 2 * a.toNat

/-- R112: the byte is XORed in whole, then exactly eight bit steps, for every polynomial. -/
def Obligations.ByteStepXorsThenShiftsEightTimes : Prop :=
  (∀ poly a b : Byte, crcByte poly a b =
      crcBit poly (crcBit poly (crcBit poly (crcBit poly (crcBit poly (crcBit poly (crcBit poly
        (crcBit poly (a ^^^ b))))))))) ∧
    (∀ poly a : Byte, crcByte poly a a = 0x00#8) ∧
    ∀ poly a b a' b' : Byte, a ^^^ b = a' ^^^ b' → crcByte poly a b = crcByte poly a' b'

/-- R113: the accumulator starts at `INIT` and takes the bytes first byte first, for every configuration. -/
def Obligations.ChecksumAbsorbsBytesInOrder : Prop :=
  (∀ c : Config, crc8 c [] = c.init) ∧
    ∀ (c : Config) (d : List Byte) (b : Byte), crc8 c (d ++ [b]) = crcByte c.poly (crc8 c d) b

/-- R31 and assumptions 14, 15: the three grains leave their result in `ACC`, and change only `ACC`, `BITCNT` and the
record; the bit step counts in `BITCNT`, a whole byte leaves it 0. -/
def Obligations.ChecksumGrainsLeaveTheirResultInAcc : Prop :=
  ∀ (a b : Byte) (data : List Byte) (s : State),
    exec (.crcBit a) s = .next { s with
      acc := crcBit Config.sg33.poly a, bitcnt := s.bitcnt + 1
      out := s.out ++ [.result (.byte (crcBit Config.sg33.poly a))] } ∧
    exec (.crcByte a b) s = .next { s with
      acc := crcByte Config.sg33.poly a b, bitcnt := 0
      out := s.out ++ [.result (.byte (crcByte Config.sg33.poly a b))] } ∧
    exec (.crc8 data) s = .next { s with
      acc := crc8 Config.sg33 data, bitcnt := 0
      out := s.out ++ [.result (.byte (crc8 Config.sg33 data))] }

/-- R117 (a) to (d): the bit step and the byte step are linear over XOR; a sequence followed by its checksum has the
checksum zero; the checksums of two sequences of one length differ by the checksum, from `INIT = 0`, of their bytewise
difference. -/
def Obligations.ChecksumIsLinear : Prop :=
  (∀ poly a b : Byte, crcBit poly (a ^^^ b) = crcBit poly a ^^^ crcBit poly b) ∧
    (∀ poly a b : Byte, crcByte poly (a ^^^ b) 0 = crcByte poly a 0 ^^^ crcByte poly b 0 ∧
      crcByte poly a b = crcByte poly (a ^^^ b) 0) ∧
    (∀ (c : Config) (d : List Byte), crc8 c (d ++ [crc8 c d]) = 0) ∧
    ∀ (c : Config) (d e : List Byte), d.length = e.length →
      crc8 c d ^^^ crc8 c e = crc8 { c with init := 0 } (List.zipWith (fun a b => a ^^^ b) d e)

/-- R117 (e): with bit 0 of the polynomial set, the bit step and the byte step are bijections. -/
def Obligations.OddPolynomialStepsAreBijections : Prop :=
  ∀ poly : Byte, poly.getLsbD 0 = true →
    Function.Bijective (crcBit poly) ∧ ∀ b, Function.Bijective fun a => crcByte poly a b

/-- R135: an encoded group verifies and decodes to the parameter, for every configuration. -/
def Obligations.EncodedGroupsVerifyAndDecode : Prop :=
  ∀ (c : Config) (p : Word), ∃ hi lo k, groupEnc c p = [hi, lo, k] ∧
    wordChk c hi lo k = true ∧ wordDec hi lo = p

/-- R118: a group that verifies does not verify once exactly one of its three bytes is changed, when bit 0 of the
polynomial is set. -/
def Obligations.OneTamperedByteIsDetected : Prop :=
  ∀ (c : Config) (b0 b1 k e : Byte), c.poly.getLsbD 0 = true → wordChk c b0 b1 k = true → e ≠ 0 →
    wordChk c (b0 ^^^ e) b1 k = false ∧ wordChk c b0 (b1 ^^^ e) k = false ∧
      wordChk c b0 b1 (k ^^^ e) = false

/-! ### The checksum port -/

/-- R119 (decision D30): the three port operations, each with everything it changes. -/
def Obligations.ChecksumPortOperations : Prop :=
  ∀ (arg : Nat) (s : State), s.busy = false →
    exec .crcClr s = .next { s with
      cacc := Config.sg33.init, out := s.out ++ [.response ⟨true, .none, []⟩] } ∧
    exec (.crcUpd arg) s = .next { s with
      cacc := crcByte Config.sg33.poly s.cacc (BitVec.ofNat 8 arg)
      out := s.out ++ [.response ⟨true, .none, []⟩] } ∧
    exec .crcRd s = .next { s with
      out := s.out ++ [.response ⟨true, .none, [s.cacc.setWidth 16]⟩] }

/-- R119 (decision D30): `CRC8.CLR`, one `CRC8.UPD` per byte and `CRC8.RD`, presented as requests and run by the
step, answer the checksum of the bytes. -/
def Obligations.ChecksumPortComputesTheChecksum : Prop :=
  ∀ (d : List Byte) (s : State), s.rst = none → s.sequencerOk = true → s.busy = false →
    s.reqs = ⟨0x8#4, 0⟩ :: (d.map fun b => ⟨0x9#4, b.toNat⟩) ++ [⟨0xA#4, 0⟩] →
    ∃ t, Host.Core.run Sys2Proof.core (d.length + 2) s = .next t ∧
      t.cacc = crc8 Config.sg33 d ∧ SameResults s t ∧ t.ready = s.ready ∧ t.reqs = [] ∧
      t.out = s.out ++ List.replicate (d.length + 1) (.response ⟨true, .none, []⟩) ++
        [.response ⟨true, .none, [(crc8 Config.sg33 d).setWidth 16]⟩]

/-! ### The framing operations -/

/-- R130: the two data bytes most significant first, then their checksum, for every configuration. -/
def Obligations.GroupEncoderAppendsTheChecksum : Prop :=
  ∀ (c : Config) (p : Word), groupEnc c p =
    [p.extractLsb' 8 8, p.extractLsb' 0 8, crc8 c [p.extractLsb' 8 8, p.extractLsb' 0 8]]

/-- R131: the code bytes without a checksum, then each group in order, 2 + 3·g bytes for every g, for every
configuration. -/
def Obligations.CommandAssemblerConcatenatesGroups : Prop :=
  (∀ (c : Config) (code : Word), cmdAsm c code [] = [code.extractLsb' 8 8, code.extractLsb' 0 8]) ∧
    (∀ (c : Config) (code p : Word) (ps : List Word),
      cmdAsm c code (ps ++ [p]) = cmdAsm c code ps ++ groupEnc c p) ∧
    ∀ (c : Config) (code : Word) (ps : List Word), (cmdAsm c code ps).length = 2 + 3 * ps.length

/-- R132, R133, R87: a word verifies exactly when all eight bits of its checksum byte are those computed over its two
data bytes; its value is the two bytes side by side, first byte high. -/
def Obligations.WordCheckComparesAndDecoderIsBigEndian : Prop :=
  (∀ (c : Config) (b0 b1 k : Byte), wordChk c b0 b1 k = true ↔ crc8 c [b0, b1] = k) ∧
    ∀ b0 b1 : Byte, wordDec b0 b1 = b0 ++ b1 ∧
      (wordDec b0 b1).toNat = 256 * b0.toNat + b1.toNat

/-- R134: a frame is accepted exactly when every word verifies, and then gives the decoded words in order; otherwise
the index is that of the first word that does not verify. -/
def Obligations.FrameAcceptedExactlyWhenAllWordsVerify : Prop :=
  (∀ (c : Config) (w : Nat) (rx : List Byte) (words : List Word), rx.length = 3 * w →
      (frameVal c w rx = .ok words ↔
        (∀ i < w, wordChk c (rx.getD (3 * i) 0) (rx.getD (3 * i + 1) 0) (rx.getD (3 * i + 2) 0)) ∧
          words = (List.range w).map fun i => wordDec (rx.getD (3 * i) 0) (rx.getD (3 * i + 1) 0))) ∧
    ∀ (c : Config) (w : Nat) (rx : List Byte) (j : Nat), rx.length = 3 * w →
      (frameVal c w rx = .corrupt j ↔ j < w ∧
        wordChk c (rx.getD (3 * j) 0) (rx.getD (3 * j + 1) 0) (rx.getD (3 * j + 2) 0) = false ∧
        ∀ i < j, wordChk c (rx.getD (3 * i) 0) (rx.getD (3 * i + 1) 0) (rx.getD (3 * i + 2) 0))

/-- Assumptions 14, 15: each framing operation and the scaler run by itself, with everything it changes: `ACC`,
`BITCNT` and the record. `FRAME.VAL` completes on every operand: on those R134 gives it with the result of R134, on all
others with some result, and the comparisons are those of the words of which all three bytes are there
(assumption 29). -/
def Obligations.FramingAndScalingOperationsShowTheirResult : Prop :=
  ∀ s : State,
    (∀ p : Word, exec (.groupEnc p) s = .next { s with
      acc := crc8 Config.sg33 [p.extractLsb' 8 8, p.extractLsb' 0 8], bitcnt := 0
      out := s.out ++ [.result (.bytes (groupEnc Config.sg33 p))] }) ∧
    (∀ b0 b1 k : Byte, exec (.wordChk b0 b1 k) s = .next { s with
      acc := crc8 Config.sg33 [b0, b1], bitcnt := 0
      out := s.out ++ [.result (.bit (wordChk Config.sg33 b0 b1 k))] }) ∧
    (∀ b0 b1 : Byte, exec (.wordDec b0 b1) s = .next { s with
      out := s.out ++ [.result (.word (b0 ++ b1))] }) ∧
    (∀ v : Nat, exec (.humScale v) s = .next { s with
      out := s.out ++ [.result (.word (humScale v))] }) ∧
    (∀ (w : Nat) (rx : List Byte), 1 ≤ w → w ≤ 3 → rx.length = 3 * w →
      exec (.frameVal w rx) s = .next { s with
        acc := accAfterChecks s.acc (frameChecks Config.sg33 w 0 rx), bitcnt := 0
        out := s.out ++ [.result (.frame (frameVal Config.sg33 w rx))] }) ∧
    ∀ (w : Nat) (rx : List Byte), ∃ r : FrameResult,
      exec (.frameVal w rx) s = .next { s with
        acc := accAfterChecks s.acc (frameChecks Config.sg33 (min w (rx.length / 3)) 0 rx)
        bitcnt := bitcntAfter (min w (rx.length / 3)) s.bitcnt
        out := s.out ++ [.result (.frame r)] }

/-- R131, R136 (assumptions 14, 15, 20): `CMD.ASM` run by itself gives the frame for every payload and places it in
`TXBUF` when the buffer holds it; what the buffer holds otherwise is a free value of at most 5 bytes. -/
def Obligations.CommandAssemblerFillsTheBuffer : Prop :=
  ∀ (code : Word) (ps : List Word) (s : State), ∃ txbuf : List Byte,
    exec (.cmdAsm code ps) s = .next { s with
      txbuf := txbuf
      acc := accAfterGroups Config.sg33 s.acc ps, bitcnt := bitcntAfter ps.length s.bitcnt
      out := s.out ++ [.result (.bytes (cmdAsm Config.sg33 code ps))] } ∧
    txbuf.length ≤ 5 ∧ (ps.length ≤ 1 → txbuf = cmdAsm Config.sg33 code ps)

/-- R160 (assumption 15): an `EXECUTE` beyond the hardware's bounds is refused by name, and an `EXECUTE` presented while an
operation is in progress too (assumption 13); no other operation is refused for its operands. R115: a configuration
is refused, whatever it is asked to do, exactly when its `POLY` and `INIT` do not give its `GOLDEN_BEEF`; the engine's own
(assumption 1) is not. -/
def Obligations.OperandsOutOfBoundsAreRefused : Prop :=
  (∀ (x : Xact) (s : State), s.busy = false → (1 < x.payload.length ∨ 3 < x.words) →
      exec (.execute x) s = .refused .operands) ∧
    (∀ (c : Config) (i : Instr) (s : State), execIn c i s = .refused .operands →
      s.busy = false ∧ ∃ x : Xact, i = .execute x ∧ (1 < x.payload.length ∨ 3 < x.words)) ∧
    (∀ (x : Xact) (s : State), s.busy = true → exec (.execute x) s = .refused .engineBusy) ∧
    (∀ c : Config, crc8 c [0xBE#8, 0xEF#8] ≠ c.goldenBeef →
      (∀ (i : Instr) (s : State), execIn c i s = .refused .configuration) ∧
        ∀ s : State, stepIn c s = .refused .configuration) ∧
    (∀ c : Config, crc8 c [0xBE#8, 0xEF#8] = c.goldenBeef →
      (∀ (i : Instr) (s : State), execIn c i s ≠ .refused .configuration) ∧
        ∀ s : State, stepIn c s ≠ .refused .configuration) ∧
    crc8 Config.sg33 [0xBE#8, 0xEF#8] = Config.sg33.goldenBeef

/-! ### The generic transaction -/

/-- R150 with R151 to R156: an `EXECUTE` with reply words whose transport answers well and whose frame verifies: every
event in order, the words in the response, and everything else it leaves (assumptions 10, 15, 16); when the answers
are there, and when those still missing come while the engine waits. -/
def Obligations.ExecuteReturnsTheVerifiedWords : Prop :=
  ∀ (x : Xact) (s : State) (bytes : List Byte) (words : List Word) (ws : List Bool) (n : Nat)
    (rs : List (Option (List Byte))), x.payload.length ≤ 1 → 1 ≤ x.words → x.words ≤ 3 →
    s.readAnswers = some bytes :: rs → bytes.length = 3 * x.words →
    frameVal Config.sg33 x.words bytes = .ok words →
    let requests : List Event := [.write Config.sg33.busAddr (cmdAsm Config.sg33 x.code x.payload),
      .sleep x.settle, .read Config.sg33.busAddr (3 * x.words)]
    (s.busy = false → s.writeAnswers = true :: ws → s.wakeups = n + 1 →
      exec (.execute x) s = .next { s with
        busy := false, phase := .idle, job := none, pending := none, txbuf := [], rxbuf := []
        acc := accAfterChecks (accAfterGroups Config.sg33 s.acc x.payload)
          (frameChecks Config.sg33 x.words 0 bytes)
        bitcnt := 0, writeAnswers := ws, wakeups := n, readAnswers := rs
        out := s.out ++ requests ++ [.response ⟨true, .none, words⟩] }) ∧
    (s.Inv Config.sg33 → s.rst = none → s.job = some (.execute x) → s.restAnswered ws n →
      step s = .next { s with
        busy := false, phase := .idle, job := none, pending := none, txbuf := [], rxbuf := []
        acc := accAfterChecks s.acc (frameChecks Config.sg33 x.words 0 bytes)
        bitcnt := 0, writeAnswers := ws, wakeups := n, readAnswers := rs
        out := s.out ++ requests.drop s.phase.requestsMade ++ [.response ⟨true, .none, words⟩] })

/-- R154: with no reply words success follows the sleep, no read is requested, no read answer is taken, and there are no
words, when the answers are there and when those still missing come while the engine waits. The end of the sleep does
not touch `RXBUF`; the end of the operation empties it, as it does after every operation (assumption 16). -/
def Obligations.ZeroWordExecuteSucceedsWithoutARead : Prop :=
  (∀ (x : Xact) (s : State) (ws : List Bool) (n : Nat), x.payload.length ≤ 1 → x.words = 0 →
    let requests : List Event :=
      [.write Config.sg33.busAddr (cmdAsm Config.sg33 x.code x.payload), .sleep x.settle]
    (s.busy = false → s.writeAnswers = true :: ws → s.wakeups = n + 1 →
      EndsWith (exec (.execute x) s) s requests ⟨true, .none, []⟩ ws n s.readAnswers) ∧
    (s.Inv Config.sg33 → s.rst = none → s.job = some (.execute x) → s.restAnswered ws n →
      EndsWith (step s) s (requests.drop s.phase.requestsMade) ⟨true, .none, []⟩ ws n
        s.readAnswers)) ∧
    ∀ (c : Config) (j : Job) (s t : State), s.job = some j → s.phase = .settle →
      (j.xact s.substep s.arg).words = 0 → advance c s = some t →
      t.rxbuf = s.rxbuf ∧ t.phase = .respond ∧ t.pending = some (.ok [])

/-- R152, R203 (decision D21): a failed write ends every operation that makes a transaction at once: no sleep, no read,
no retry, whether the answer is there when the request is made or comes while the engine waits for it, and in every
substep of `BEGIN`. -/
def Obligations.FailedWriteEndsTheOperationAtOnce : Prop :=
  (∀ (i : Instr) (x : Xact) (s : State) (ws : List Bool), firstXact Config.sg33 i = some x →
      s.busy = false → s.writeAnswers = false :: ws →
      FailsWith (exec i s) s (i = .beginSeq)
        [.write Config.sg33.busAddr (cmdAsm Config.sg33 x.code x.payload)]
        .transportWrite ws s.wakeups s.readAnswers) ∧
    ∀ (j : Job) (s : State) (ws : List Bool), s.Inv Config.sg33 → s.rst = none → s.job = some j →
      s.phase = .write → s.writeAnswers = false :: ws →
      FailsWith (step s) s (j = .beginSeq) [] .transportWrite ws s.wakeups s.readAnswers

/-- R155, R204: the read asks for 3·w bytes, and if it is answered with a failure the operation fails with TransportRead
and no word is checked (`ACC` is what assembling left): `IDENT`, `FEAT`, `MEAS`, `MEASRAW`, `BEGIN` and `EXECUTE`, whether
the answer is there when the request is made or comes while the engine waits for it, and in every substep of `BEGIN`. -/
def Obligations.FailedReadEndsTheTransaction : Prop :=
  (∀ (i : Instr) (x : Xact) (s : State) (ws : List Bool) (n : Nat) (rs : List (Option (List Byte))),
      firstXact Config.sg33 i = some x → 1 ≤ x.words → s.busy = false →
      s.writeAnswers = true :: ws → s.wakeups = n + 1 → s.readAnswers = none :: rs →
      FailsWith (exec i s) s (i = .beginSeq)
        [.write Config.sg33.busAddr (cmdAsm Config.sg33 x.code x.payload), .sleep x.settle,
          .read Config.sg33.busAddr (3 * x.words)] .transportRead ws n rs ∧
      ∀ t, exec i s = .next t → t.acc = accAfterGroups Config.sg33 s.acc x.payload) ∧
    ∀ (j : Job) (s : State) (rs : List (Option (List Byte))), s.Inv Config.sg33 → s.rst = none →
      s.job = some j → s.phase = .read → s.readAnswers = none :: rs →
      FailsWith (step s) s (j = .beginSeq) [] .transportRead s.writeAnswers s.wakeups rs ∧
      ∀ t, step s = .next t → t.acc = s.acc

/-- R53 (decision D22): a read answered with any other number of bytes is a failed read, of whichever operation, whether
the answer is there when the request is made or comes while the engine waits for it. -/
def Obligations.ReadOfTheWrongLengthIsAFailure : Prop :=
  (∀ (i : Instr) (x : Xact) (s : State) (bytes : List Byte) (ws : List Bool) (n : Nat)
      (rs : List (Option (List Byte))), firstXact Config.sg33 i = some x → 1 ≤ x.words →
      s.busy = false → s.writeAnswers = true :: ws → s.wakeups = n + 1 →
      s.readAnswers = some bytes :: rs → bytes.length ≠ 3 * x.words →
      exec i s = exec i { s with readAnswers := none :: rs }) ∧
    ∀ (j : Job) (s : State) (bytes : List Byte) (rs : List (Option (List Byte))), s.rst = none →
      s.job = some j → s.phase = .read → s.readAnswers = some bytes :: rs →
      bytes.length ≠ 3 * (j.xact s.substep s.arg).words →
      step s = step { s with readAnswers := none :: rs }

/-- R156, R205: one corrupt word fails the whole operation with ChecksumMismatch, and no word is surfaced or stored:
`IDENT`, `FEAT`, `MEAS`, `MEASRAW`, `BEGIN` and `EXECUTE`, whether the reply is there when the request is made or comes
while the engine waits for it, and in every substep of `BEGIN`. -/
def Obligations.CorruptWordFailsTheWholeTransaction : Prop :=
  (∀ (i : Instr) (x : Xact) (s : State) (bytes : List Byte) (k : Nat) (ws : List Bool) (n : Nat)
      (rs : List (Option (List Byte))), firstXact Config.sg33 i = some x → 1 ≤ x.words →
      s.busy = false → s.writeAnswers = true :: ws → s.wakeups = n + 1 →
      s.readAnswers = some bytes :: rs → bytes.length = 3 * x.words →
      frameVal Config.sg33 x.words bytes = .corrupt k →
      FailsWith (exec i s) s (i = .beginSeq)
        [.write Config.sg33.busAddr (cmdAsm Config.sg33 x.code x.payload), .sleep x.settle,
          .read Config.sg33.busAddr (3 * x.words)] .checksumMismatch ws n rs) ∧
    ∀ (j : Job) (s : State) (bytes : List Byte) (k : Nat) (rs : List (Option (List Byte))),
      s.Inv Config.sg33 → s.rst = none → s.job = some j → s.phase = .read →
      s.readAnswers = some bytes :: rs → bytes.length = 3 * (j.xact s.substep s.arg).words →
      frameVal Config.sg33 (j.xact s.substep s.arg).words bytes = .corrupt k →
      FailsWith (step s) s (j = .beginSeq) [] .checksumMismatch s.writeAnswers s.wakeups rs

/-- R158: per `EXECUTE`, run by itself or by one of the six commands, exactly one write; one sleep if the write was answered
`ok`, else none; one read if the sleep was then answered and there are reply words, else none. The first clause is the
step that accepts the operation, the second every step that goes on with it. -/
def Obligations.ExecuteWritesOnceAndReadsAtMostOnce : Prop :=
  (∀ (i : Instr) (x : Xact) (s : State), firstXact Config.sg33 i = some x → i ≠ .beginSeq →
      s.busy = false →
      ∃ t new, exec i s = .next t ∧ t.out = s.out ++ new ∧
        new.filter Event.isRequest =
          .write Config.sg33.busAddr (cmdAsm Config.sg33 x.code x.payload) ::
            requestsAfterWrite Config.sg33 x s) ∧
    ∀ (j : Job) (s : State), s.Inv Config.sg33 → s.rst = none → s.job = some j → j ≠ .beginSeq →
      ∃ t new, step s = .next t ∧ t.out = s.out ++ new ∧
        (s.phase = .write → new.filter Event.isRequest =
          requestsAfterWrite Config.sg33 (j.xact s.substep s.arg) s) ∧
        (s.phase = .settle → new.filter Event.isRequest =
          requestsAfterSleep Config.sg33 (j.xact s.substep s.arg) s) ∧
        (s.phase = .read → new.filter Event.isRequest = [])

/-- R63, R178 (c), R211, R242: every host operation, and `EXECUTE`, makes its requests in the binding order. The step that
accepts it and every later step that goes on with it end where the engine waits for an answer that has not come, with
the rest of the requests still to make, or at the end or the point of failure, where the one response has been issued
as the last event, a success only once every request has been made. The internal operations make no request and no
response. And R233: where each answer is given to an outstanding request (as `State.input` gives it, from reset on), a step
of an engine with any configuration, a reset that lands in it included, requests a read only if it found the engine in
`SETTLE`, with the sleep that this transaction requested after its write answered: the read never overtakes it. -/
def Obligations.OperationsMakeTheirRequestsInOrder : Prop :=
  (∀ (i : Instr) (s t : State), s.busy = false → exec i s = .next t →
      ((i.hostSelectable = true ∨ ∃ x, i = .execute x) →
        Progress Config.sg33 (script Config.sg33 i) s t ∧
          (t.busy = true → t.remaining Config.sg33 ≠ script Config.sg33 i)) ∧
      (i.hostSelectable = false → (∀ x, i ≠ .execute x) →
        ∃ v, t.out = s.out ++ [.result v] ∧ t.busy = false)) ∧
    (∀ s : State, s.Inv Config.sg33 → s.rst = none → s.busy = true →
      ∃ t, step s = .next t ∧ Progress Config.sg33 (s.remaining Config.sg33) s t) ∧
    ∀ (c : Config) (s t : State) (new : List Event) (a : BusAddr) (n : Nat), s.ownAnswers →
      stepIn c s = .next t → t.out = s.out ++ new → .read a n ∈ new →
      s.phase = .settle ∧ s.wakeups = 1

/-! ### The commands -/

/-- R171: `IDENT` returns the three verified words, whatever they are, and stores nothing; when the answers are there, and
when those still missing come while the engine waits. -/
def Obligations.IdentReturnsTheSerialIdentifier : Prop :=
  ∀ (s : State) (bytes : List Byte) (words : List Word) (ws : List Bool) (n : Nat)
    (rs : List (Option (List Byte))), s.readAnswers = some bytes :: rs → bytes.length = 9 →
    frameVal Config.sg33 3 bytes = .ok words →
    let requests : List Event :=
      [.write Config.sg33.busAddr [0x36#8, 0x82#8], .sleep 10, .read Config.sg33.busAddr 9]
    (s.busy = false → s.writeAnswers = true :: ws → s.wakeups = n + 1 →
      EndsWith (exec .ident s) s requests ⟨true, .none, words⟩ ws n rs) ∧
    (s.Inv Config.sg33 → s.rst = none → s.job = some .ident → s.restAnswered ws n →
      EndsWith (step s) s (requests.drop s.phase.requestsMade) ⟨true, .none, words⟩ ws n rs)

/-- R172, R207 (the test is part of `FEAT` by decision D24): the verified word, masked with 0x00F0, decides between
success and FamilyMismatch; nothing is stored; when the answers are there, and when those still missing come while the
engine waits. -/
def Obligations.FeatTestsTheFamily : Prop :=
  ∀ (s : State) (b0 b1 : Byte) (ws : List Bool) (n : Nat) (rs : List (Option (List Byte))),
    s.readAnswers = some [b0, b1, crc8 Config.sg33 [b0, b1]] :: rs →
    let requests : List Event :=
      [.write Config.sg33.busAddr [0x20#8, 0x2F#8], .sleep 10, .read Config.sg33.busAddr 3]
    let response : Response := if (b0 ++ b1) &&& 0x00F0#16 = Config.sg33.expectedFamily then
      ⟨true, .none, [b0 ++ b1]⟩ else ⟨false, .familyMismatch, []⟩
    (s.busy = false → s.writeAnswers = true :: ws → s.wakeups = n + 1 →
      EndsWith (exec .feat s) s requests response ws n rs) ∧
    (s.Inv Config.sg33 → s.rst = none → s.job = some .feat → s.restAnswered ws n →
      EndsWith (step s) s (requests.drop s.phase.requestsMade) response ws n rs)

/-- R173: `INIT` succeeds once the write is accepted and the settle delay has passed; when the answers are there, and when
those still missing come while the engine waits. -/
def Obligations.InitSucceedsAfterTheSettleDelay : Prop :=
  ∀ (s : State) (ws : List Bool) (n : Nat),
    let requests : List Event := [.write Config.sg33.busAddr [0x20#8, 0x03#8], .sleep 10]
    (s.busy = false → s.writeAnswers = true :: ws → s.wakeups = n + 1 →
      EndsWith (exec .init s) s requests ⟨true, .none, []⟩ ws n s.readAnswers) ∧
    (s.Inv Config.sg33 → s.rst = none → s.job = some .init → s.restAnswered ws n →
      EndsWith (step s) s (requests.drop s.phase.requestsMade) ⟨true, .none, []⟩ ws n s.readAnswers)

/-- R174 with the policy of R213: `MEAS` stores word 0 in `ECO2` and word 1 in `TVOC` when both verify, and
everything else it leaves (assumptions 6, 10, 15, 16); when the answers are there, and when those still missing come
while the engine waits. -/
def Obligations.MeasStoresTheVerifiedPair : Prop :=
  ∀ (s : State) (b0 b1 d0 d1 : Byte) (ws : List Bool) (n : Nat) (rs : List (Option (List Byte))),
    s.readAnswers =
      some [b0, b1, crc8 Config.sg33 [b0, b1], d0, d1, crc8 Config.sg33 [d0, d1]] :: rs →
    let requests : List Event :=
      [.write Config.sg33.busAddr [0x20#8, 0x08#8], .sleep 12, .read Config.sg33.busAddr 6]
    (s.busy = false → s.writeAnswers = true :: ws → s.wakeups = n + 1 →
      exec .meas s = .next { s with
        eco2 := b0 ++ b1, tvoc := d0 ++ d1
        busy := false, phase := .idle, job := none, pending := none, txbuf := [], rxbuf := []
        acc := crc8 Config.sg33 [d0, d1], bitcnt := 0
        writeAnswers := ws, wakeups := n, readAnswers := rs
        out := s.out ++ requests ++ [.response ⟨true, .none, [b0 ++ b1, d0 ++ d1]⟩] }) ∧
    (s.Inv Config.sg33 → s.rst = none → s.job = some .meas → s.restAnswered ws n →
      step s = .next { s with
        eco2 := b0 ++ b1, tvoc := d0 ++ d1
        busy := false, phase := .idle, job := none, pending := none, txbuf := [], rxbuf := []
        acc := crc8 Config.sg33 [d0, d1], bitcnt := 0
        writeAnswers := ws, wakeups := n, readAnswers := rs
        out := s.out ++ requests.drop s.phase.requestsMade ++
          [.response ⟨true, .none, [b0 ++ b1, d0 ++ d1]⟩] })

/-- R175 with the policy of R213: `MEASRAW` stores word 0 in `RAWH2` and word 1 in `RAWETH` when both verify, and
everything else it leaves (assumptions 6, 10, 15, 16); when the answers are there, and when those still missing come
while the engine waits. -/
def Obligations.MeasRawStoresTheVerifiedPair : Prop :=
  ∀ (s : State) (b0 b1 d0 d1 : Byte) (ws : List Bool) (n : Nat) (rs : List (Option (List Byte))),
    s.readAnswers =
      some [b0, b1, crc8 Config.sg33 [b0, b1], d0, d1, crc8 Config.sg33 [d0, d1]] :: rs →
    let requests : List Event :=
      [.write Config.sg33.busAddr [0x20#8, 0x50#8], .sleep 25, .read Config.sg33.busAddr 6]
    (s.busy = false → s.writeAnswers = true :: ws → s.wakeups = n + 1 →
      exec .measRaw s = .next { s with
        rawH2 := b0 ++ b1, rawEth := d0 ++ d1
        busy := false, phase := .idle, job := none, pending := none, txbuf := [], rxbuf := []
        acc := crc8 Config.sg33 [d0, d1], bitcnt := 0
        writeAnswers := ws, wakeups := n, readAnswers := rs
        out := s.out ++ requests ++ [.response ⟨true, .none, [b0 ++ b1, d0 ++ d1]⟩] }) ∧
    (s.Inv Config.sg33 → s.rst = none → s.job = some .measRaw → s.restAnswered ws n →
      step s = .next { s with
        rawH2 := b0 ++ b1, rawEth := d0 ++ d1
        busy := false, phase := .idle, job := none, pending := none, txbuf := [], rxbuf := []
        acc := crc8 Config.sg33 [d0, d1], bitcnt := 0
        writeAnswers := ws, wakeups := n, readAnswers := rs
        out := s.out ++ requests.drop s.phase.requestsMade ++
          [.response ⟨true, .none, [b0 ++ b1, d0 ++ d1]⟩] })

/-- R176: the scaled value is exactly the floor of `v * 256 * 16777 / 2^24` for every accepted input, at most 65535 with
nothing dropped, and the scaler is monotone; every 16-bit value is reached (R91 (d)). -/
def Obligations.HumidityScalerIsTheExactFloor : Prop :=
  (∀ v : Nat, v ≤ 256000 → (humScale v).toNat = v * 256 * 16777 / 2 ^ 24) ∧
    (∀ v v' : Nat, v ≤ v' → v' ≤ 256000 → humScale v ≤ humScale v') ∧
    ∀ p : Word, humInRange (humArg p) = true ∧ humScale (humArg p) = p

/-- R177 with the policy of R213: `SETHUM` in range writes the scaled operand with its checksum, sleeps and succeeds;
nothing is stored but the latched operand, which `ARG` still holds (assumption 26); when the answers are there, and
when those still missing come while the engine waits. -/
def Obligations.SetHumWritesTheScaledOperand : Prop :=
  ∀ (s : State) (ws : List Bool) (n : Nat),
    let requests : Nat → List Event := fun arg => [.write Config.sg33.busAddr
      ([0x20#8, 0x61#8] ++ groupEnc Config.sg33 (humScale arg)), .sleep 10]
    (∀ arg : Nat, arg ≤ 256000 → s.busy = false → s.writeAnswers = true :: ws → s.wakeups = n + 1 →
      EndsWith (exec (.setHum arg) s) s (requests arg) ⟨true, .none, []⟩ ws n s.readAnswers ∧
      ∀ t, exec (.setHum arg) s = .next t → t.arg = arg) ∧
    (s.Inv Config.sg33 → s.rst = none → s.job = some .setHum → s.restAnswered ws n →
      EndsWith (step s) s ((requests s.arg).drop s.phase.requestsMade) ⟨true, .none, []⟩ ws n
        s.readAnswers ∧
      ∀ t, step s = .next t → t.arg = s.arg)

/-- R208, R177: an operand above 256000 fails with InputRange before any other action, whatever `READY` is and whatever the
configuration that is not refused (R115): no transport request, no sleep, nothing changed but the latched operand (assumption 26); and every other
failure of a host operation, Refused apart, comes after a write request. -/
def Obligations.HumidityOutOfRangeFailsWithoutTransport : Prop :=
  (∀ (arg : Nat) (s : State), 256000 < arg → arg < 2 ^ 32 → s.busy = false →
      exec (.setHum arg) s = .next { s with
        arg := arg, out := s.out ++ [.response ⟨false, .inputRange, []⟩] }) ∧
    (∀ (c : Config) (arg : Nat) (s : State), c.wellFormed = true → 256000 < arg →
      arg < 2 ^ c.argWidth → s.busy = false →
      execIn c (.setHum arg) s = .next { s with
        arg := arg, out := s.out ++ [.response ⟨false, .inputRange, []⟩] }) ∧
    ∀ (i : Instr) (s t : State) (new : List Event) (r : Response), s.busy = false →
      exec i s = .next t → t.out = s.out ++ new → .response r ∈ new → r.ok = false →
      r.cause ≠ .inputRange → r.cause ≠ .refused →
      ∃ f, .write Config.sg33.busAddr f ∈ new

/-- R178: `BEGIN` with three good transactions sets `READY`, drops the words, and makes exactly the events of its corner
case (c): when the answers are there, and, in each of its substeps, when those still missing come while the engine
waits. A substep that has succeeded is followed by the write of the next one, whose answer is waited for (R55). -/
def Obligations.BeginSucceedsWithAllThreeSubsteps : Prop :=
  let ident : List Event :=
    [.write Config.sg33.busAddr [0x36#8, 0x82#8], .sleep 10, .read Config.sg33.busAddr 9]
  let featWrite : Event := .write Config.sg33.busAddr [0x20#8, 0x2F#8]
  let feat : List Event := [featWrite, .sleep 10, .read Config.sg33.busAddr 3]
  let initWrite : Event := .write Config.sg33.busAddr [0x20#8, 0x03#8]
  let init : List Event := [initWrite, .sleep 10]
  let ready := fun (o : Host.Outcome State Fault Refusal) (s : State) (events : List Event)
      (ws : List Bool) (n : Nat) (rs : List (Option (List Byte))) =>
    ∃ t, o = .next t ∧ t.ready = true ∧ SameResults s t ∧ t.cacc = s.cacc ∧ t.busy = false ∧
      t.phase = .idle ∧ t.writeAnswers = ws ∧ t.wakeups = n ∧ t.readAnswers = rs ∧
      t.out = s.out ++ events ++ [.response ⟨true, .none, []⟩]
  (∀ (s : State) (id : List Byte) (words : List Word) (rs : List (Option (List Byte))),
      s.readAnswers = some id :: rs → id.length = 9 → frameVal Config.sg33 3 id = .ok words →
      (∀ (b0 b1 : Byte) (ws : List Bool) (n : Nat) (rs' : List (Option (List Byte))),
        rs = some [b0, b1, crc8 Config.sg33 [b0, b1]] :: rs' →
        (b0 ++ b1) &&& 0x00F0#16 = Config.sg33.expectedFamily →
        (s.busy = false → s.writeAnswers = true :: true :: true :: ws → s.wakeups = n + 3 →
          ready (exec .beginSeq s) s (ident ++ feat ++ init) ws n rs') ∧
        (s.Inv Config.sg33 → s.rst = none → s.job = some .beginSeq → s.substep = .identify →
          s.restAnswered (true :: true :: ws) (n + 2) →
          ready (step s) s (ident.drop s.phase.requestsMade ++ feat ++ init) ws n rs')) ∧
      ∀ n : Nat,
        (s.busy = false → s.writeAnswers = [true] → s.wakeups = n + 1 →
          WaitsIn (exec .beginSeq s) s .beginSeq .readFeatures .write (ident ++ [featWrite]) [] n rs) ∧
        (s.Inv Config.sg33 → s.rst = none → s.job = some .beginSeq → s.substep = .identify →
          s.restAnswered [] n →
          WaitsIn (step s) s .beginSeq .readFeatures .write
            (ident.drop s.phase.requestsMade ++ [featWrite]) [] n rs)) ∧
    (∀ (s : State) (b0 b1 : Byte) (n : Nat) (rs : List (Option (List Byte))),
      s.readAnswers = some [b0, b1, crc8 Config.sg33 [b0, b1]] :: rs →
      (b0 ++ b1) &&& 0x00F0#16 = Config.sg33.expectedFamily →
      s.Inv Config.sg33 → s.rst = none → s.job = some .beginSeq → s.substep = .readFeatures →
      (∀ ws, s.restAnswered (true :: ws) (n + 1) →
        ready (step s) s (feat.drop s.phase.requestsMade ++ init) ws n rs) ∧
      (s.restAnswered [] n →
        WaitsIn (step s) s .beginSeq .initMeas .write
          (feat.drop s.phase.requestsMade ++ [initWrite]) [] n rs)) ∧
    ∀ (s : State) (ws : List Bool) (n : Nat), s.Inv Config.sg33 → s.rst = none →
      s.job = some .beginSeq → s.substep = .initMeas → s.restAnswered ws n →
      ready (step s) s (init.drop s.phase.requestsMade) ws n s.readAnswers

/-- R178 (a), (b), R207, R210: `BEGIN` ends at the first substep that fails, with that substep's cause and `READY = 0` (also
from Ready: decision D14), and writes no later command: `IDENT`'s write, read or checksum; after a good `IDENT`, `FEAT`'s
write, read, checksum or family; after a good `FEAT`, `INIT`'s write. The family test comes out the same where `FEAT`'s
answers come while `BEGIN` waits for them, in any phase of its second substep. -/
def Obligations.BeginStopsAtTheFirstFailingSubstep : Prop :=
  let identWrite : Event := .write Config.sg33.busAddr [0x36#8, 0x82#8]
  let featWrite : Event := .write Config.sg33.busAddr [0x20#8, 0x2F#8]
  let initWrite : Event := .write Config.sg33.busAddr [0x20#8, 0x03#8]
  let ident : List Event := [identWrite, .sleep 10, .read Config.sg33.busAddr 9]
  let feat : List Event := [featWrite, .sleep 10, .read Config.sg33.busAddr 3]
  (∀ (s : State) (ws : List Bool), s.busy = false → s.writeAnswers = false :: ws →
      FailsWith (exec .beginSeq s) s True [identWrite] .transportWrite ws s.wakeups s.readAnswers) ∧
    (∀ (s : State) (ft : List Byte) (w : Word) (ws : List Bool) (n : Nat)
      (rs : List (Option (List Byte))), s.Inv Config.sg33 → s.rst = none → s.job = some .beginSeq →
      s.substep = .readFeatures → s.restAnswered ws n → s.readAnswers = some ft :: rs →
      ft.length = 3 → frameVal Config.sg33 1 ft = .ok [w] →
      w &&& 0x00F0#16 ≠ Config.sg33.expectedFamily →
      FailsWith (step s) s True (feat.drop s.phase.requestsMade) .familyMismatch ws n rs) ∧
    ∀ (s : State) (ws : List Bool) (n : Nat) (a : Option (List Byte))
      (rs : List (Option (List Byte))), s.busy = false → s.writeAnswers = true :: ws →
      s.wakeups = n + 1 → s.readAnswers = a :: rs →
      ((∀ id, a = some id → id.length ≠ 9) →
        FailsWith (exec .beginSeq s) s True ident .transportRead ws n rs) ∧
      ∀ id, a = some id → id.length = 9 →
        (∀ k, frameVal Config.sg33 3 id = .corrupt k →
          FailsWith (exec .beginSeq s) s True ident .checksumMismatch ws n rs) ∧
        ∀ words, frameVal Config.sg33 3 id = .ok words →
          (∀ ws', ws = false :: ws' →
            FailsWith (exec .beginSeq s) s True (ident ++ [featWrite]) .transportWrite ws' n rs) ∧
          ∀ ws' n' b rs', ws = true :: ws' → n = n' + 1 → rs = b :: rs' →
            ((∀ ft, b = some ft → ft.length ≠ 3) →
              FailsWith (exec .beginSeq s) s True (ident ++ feat) .transportRead ws' n' rs') ∧
            ∀ ft, b = some ft → ft.length = 3 →
              (∀ k, frameVal Config.sg33 1 ft = .corrupt k →
                FailsWith (exec .beginSeq s) s True (ident ++ feat) .checksumMismatch ws' n' rs') ∧
              ∀ w, frameVal Config.sg33 1 ft = .ok [w] →
                (w &&& 0x00F0#16 ≠ Config.sg33.expectedFamily →
                  FailsWith (exec .beginSeq s) s True (ident ++ feat) .familyMismatch ws' n' rs') ∧
                (w &&& 0x00F0#16 = Config.sg33.expectedFamily → ∀ ws'', ws' = false :: ws'' →
                  FailsWith (exec .beginSeq s) s True (ident ++ feat ++ [initWrite])
                    .transportWrite ws'' n' rs')

/-- R91 (a), R220 (decision D27, assumption 12): every reserved select code answers Refused at once, with no transport
request and no state change. -/
def Obligations.ReservedCodesAnswerRefused : Prop :=
  ∀ (i : Instr) (s : State), i ∈ [Instr.reserved7, .reservedB, .reservedC, .reservedD, .reservedE,
      .reservedF] → s.busy = false →
    exec i s = .next { s with out := s.out ++ [.response ⟨false, .refused, []⟩] }

/-- R213, R214 (decision D18): under the policy `refuse` the three guarded operations have no meaning while
Uninitialized, and `SETHUM` out of range still fails with InputRange, nothing changed but the latched operand
(assumption 26); under `execute`, or in Ready, they run. (A configuration that breaks R115 is
refused before.) -/
def Obligations.UninitialisedPolicyGuardsThreeOperations : Prop :=
  ∀ (c : Config) (arg : Nat) (s : State), c.wellFormed = true → s.busy = false →
    arg < 2 ^ c.argWidth →
    (c.uninitPolicy = .refuse → s.ready = false →
      execIn c .meas s = .refused .uninitialised ∧ execIn c .measRaw s = .refused .uninitialised ∧
        (arg ≤ 256000 → execIn c (.setHum arg) s = .refused .uninitialised) ∧
        (256000 < arg → execIn c (.setHum arg) s = .next { s with
          arg := arg, out := s.out ++ [.response ⟨false, .inputRange, []⟩] })) ∧
    (c.uninitPolicy = .execute ∨ s.ready = true →
      execIn c .meas s = .next (s.runJob c .meas) ∧
        execIn c .measRaw s = .next (s.runJob c .measRaw) ∧
        (arg ≤ 256000 → execIn c (.setHum arg) s = .next ((s.latchArg arg).runJob c .setHum)))

/-! ### What operations leave unchanged -/

/-- R22: a result pair changes only in a step that ends `MEAS` or `MEASRAW` with success, both registers together, and
then to the two words of a frame whose every word verified; the other pair stays. -/
def Obligations.ResultPairsChangeTogetherAndOnlyOnSuccess : Prop :=
  ∀ s t : State, s.Inv Config.sg33 → s.rst = none → step s = .next t →
    SameResults s t ∨
      ∃ w0 w1 bytes, some bytes ∈ s.readAnswers ∧ frameVal Config.sg33 2 bytes = .ok [w0, w1] ∧
        t.out.getLast? = some (.response ⟨true, .none, [w0, w1]⟩) ∧ t.busy = false ∧
        ((s.worksOn .meas ∧ t.eco2 = w0 ∧ t.tvoc = w1 ∧ t.rawH2 = s.rawH2 ∧ t.rawEth = s.rawEth) ∨
          (s.worksOn .measRaw ∧ t.rawH2 = w0 ∧ t.rawEth = w1 ∧ t.eco2 = s.eco2 ∧ t.tvoc = s.tvoc))

/-- R23, R178, R179: `READY` changes only in a step that ends `BEGIN`, to what its response says (a failed `BEGIN` from
Ready ends Uninitialized: decision D14). -/
def Obligations.OnlyBeginChangesReady : Prop :=
  ∀ s t : State, s.Inv Config.sg33 → s.rst = none → step s = .next t →
    t.ready = s.ready ∨
      s.worksOn .beginSeq ∧ ∃ r, t.out.getLast? = some (.response r) ∧ t.ready = r.ok

/-- R206: on any failure of any operation the events issued before stay on the record, the result registers and `CACC` keep
their values, `READY` too except that a failed `BEGIN` ends with 0, the engine is idle and the response has no words. -/
def Obligations.FailureLeavesTheStateBehind : Prop :=
  ∀ s t : State, s.Inv Config.sg33 → s.rst = none → step s = .next t →
    ∃ new, t.out = s.out ++ new ∧ ∀ r, .response r ∈ new → r.ok = false →
      SameResults s t ∧ t.cacc = s.cacc ∧ t.busy = false ∧ t.phase = .idle ∧ r.words = [] ∧
        (s.worksOn .beginSeq → t.ready = false) ∧ (¬ s.worksOn .beginSeq → t.ready = s.ready)

/-- R39 (decision D30): no transaction reads or writes `CACC`: the operations that make one do the same whatever it
holds, and leave it, in the step that accepts them and in every step that goes on with them. -/
def Obligations.TransactionsAndChecksumPortAreIndependent : Prop :=
  (∀ (i : Instr) (s t : State) (a : Byte), (∃ j, Instr.toJob i = some j) → exec i s = .next t →
      t.cacc = s.cacc ∧ exec i { s with cacc := a } = .next { t with cacc := a }) ∧
    ∀ (s t : State) (a : Byte), s.rst = none → s.busy = true → step s = .next t →
      t.cacc = s.cacc ∧ step { s with cacc := a } = .next { t with cacc := a }

/-- R21, R23: no operation reads a result register or `READY`: from a state that differs in them an operation, and every
step, issues the same events and leaves the same rest of the state. -/
def Obligations.NoOperationReadsResultsOrReady : Prop :=
  ∀ (s s' t : State),
    s' = { s with
      eco2 := s'.eco2, tvoc := s'.tvoc, rawH2 := s'.rawH2, rawEth := s'.rawEth, ready := s'.ready } →
    (∀ i : Instr, exec i s = .next t →
      ∃ t', exec i s' = .next t' ∧ t' = { t with
        eco2 := t'.eco2, tvoc := t'.tvoc, rawH2 := t'.rawH2, rawEth := t'.rawEth
        ready := t'.ready }) ∧
    (step s = .next t →
      ∃ t', step s' = .next t' ∧ t' = { t with
        eco2 := t'.eco2, tvoc := t'.tvoc, rawH2 := t'.rawH2, rawEth := t'.rawEth
        ready := t'.ready })

/-- Assumption 10: the record of events is write-only: whatever it holds, a step does the same and appends the same
events. -/
def Obligations.TheRecordOfEventsIsNeverRead : Prop :=
  ∀ (s t : State) (pre : List Event), step s = .next t →
    step { s with out := pre ++ s.out } = .next { t with out := pre ++ t.out }

/-- R219 (decision D20): with `TRACE_EN` each word that is checked shows its index, the checksum computed and the checksum
byte received, in order, the first mismatch included and nothing after it, and without it nothing is shown: the (first)
reply of an operation whose answers are all there, a reply that comes while the engine waits for it (in every substep of
`BEGIN` too), `FRAME.VAL` and `WORD.CHK` by themselves (the index 0 of the last is assumption 27; what the first shows
outside the operands of R134, where only words of which all three bytes are there are checked, is assumption 29). Behind
the checks of a reply comes the one response, in `BEGIN` too if a word is corrupt, and nothing is shown before another
reply has come. And the trace changes no state and no outcome: an operation leaves the same state but for trace events on the record. -/
def Obligations.TraceShowsEachCheckAndChangesNothingElse : Prop :=
  (∀ (c : Config) (s : State) (j : Job),
      (s.runJob { c with traceEn := true } j).eraseTrace =
        s.eraseTrace.runJob { c with traceEn := false } j) ∧
    (∀ (c : Config) (i : Instr) (x : Xact) (s : State) (bytes : List Byte) (ws : List Bool) (n : Nat)
      (rs : List (Option (List Byte))), firstXact c i = some x → 1 ≤ x.words →
      c.wellFormed = true → (c.uninitPolicy = .execute ∨ s.ready = true) → s.busy = false →
      s.writeAnswers = true :: ws → s.wakeups = n + 1 → s.readAnswers = some bytes :: rs →
      bytes.length = 3 * x.words →
      ∃ t rest, execIn c i s = .next t ∧
        t.out = s.out ++ [.write c.busAddr (cmdAsm c x.code x.payload), .sleep x.settle,
          .read c.busAddr (3 * x.words)] ++ shownChecks c x.words bytes ++ rest ∧
        (i ≠ .beginSeq ∨ (∃ k, frameVal c x.words bytes = .corrupt k) → ∃ r, rest = [.response r]) ∧
        (rs = [] → rest.filter Event.isTrace = [])) ∧
    (∀ (c : Config) (j : Job) (s : State) (bytes : List Byte) (rs : List (Option (List Byte))),
      c.wellFormed = true → s.Inv c → s.rst = none → s.job = some j → s.phase = .read →
      s.readAnswers = some bytes :: rs → bytes.length = 3 * (j.xact s.substep s.arg).words →
      ∃ t rest, stepIn c s = .next t ∧
        t.out = s.out ++ shownChecks c (j.xact s.substep s.arg).words bytes ++ rest ∧
        (j ≠ .beginSeq ∨ (∃ k, frameVal c (j.xact s.substep s.arg).words bytes = .corrupt k) →
          ∃ r, rest = [.response r]) ∧
        (rs = [] → rest.filter Event.isTrace = [])) ∧
    (∀ (c : Config) (w : Nat) (rx : List Byte) (s : State), c.wellFormed = true →
      ∃ t r, execIn c (.frameVal w rx) s = .next t ∧
        t.out = s.out ++ shownChecks c (min w (rx.length / 3)) rx ++ [.result (.frame r)] ∧
        (1 ≤ w → w ≤ 3 → rx.length = 3 * w → r = frameVal c w rx)) ∧
    ∀ (c : Config) (b0 b1 k : Byte) (s : State), c.wellFormed = true →
      ∃ t, execIn c (.wordChk b0 b1 k) s = .next t ∧
        t.out = s.out ++ (if c.traceEn then [.trace 0 (crc8 c [b0, b1]) k] else []) ++
          [.result (.bit (wordChk c b0 b1 k))]

/-- The frame of the operations that make a transaction, in the step that accepts one and in every step that goes on with
one: which registers each may write (R21 to R23, R27, R170 to R179), that none touches `CACC` (R39) or the reset input,
and that none takes a held request (R236). That `ARG` is written by the acceptance of `SETHUM` alone and stays in every
other step is the model's choice (assumption 26; R28 says only that it is not observable after the operation), and so
is the count of resets, which only a reset event changes (assumption 17). -/
def Obligations.TransactionFrame : Prop :=
  (∀ (i : Instr) (s t : State), (∃ j, Instr.toJob i = some j) → s.busy = false → exec i s = .next t →
    t.cacc = s.cacc ∧ t.rst = s.rst ∧ t.reqs = s.reqs ∧ t.resets = s.resets ∧
    (i ≠ .meas → t.eco2 = s.eco2 ∧ t.tvoc = s.tvoc) ∧
    (i ≠ .measRaw → t.rawH2 = s.rawH2 ∧ t.rawEth = s.rawEth) ∧
    (i ≠ .beginSeq → t.ready = s.ready ∧ t.substep = s.substep) ∧
    ((∀ a, i ≠ .setHum a) → t.arg = s.arg)) ∧
  ∀ s t : State, s.rst = none → s.busy = true → step s = .next t →
    t.cacc = s.cacc ∧ t.rst = s.rst ∧ t.reqs = s.reqs ∧ t.resets = s.resets ∧ t.arg = s.arg ∧
    (s.job ≠ some .meas → t.eco2 = s.eco2 ∧ t.tvoc = s.tvoc) ∧
    (s.job ≠ some .measRaw → t.rawH2 = s.rawH2 ∧ t.rawEth = s.rawEth) ∧
    (s.job ≠ some .beginSeq → t.ready = s.ready ∧ t.substep = s.substep)
end

