-- ==== Sys2Proof/Laws/Checksum.lean ====
section
/-! SUPPORT. The laws of the checksum engine and the framing functions that later proofs cite instead of unfolding
them (40_checksum.md R111 to R114, 41_framing.md R130 to R134). -/

namespace Sys2Proof.Machine

@[simp] theorem crcBit_zero (poly : Byte) : crcBit poly 0#8 = 0#8 := by
  simp [crcBit]

@[simp] theorem crcBits_zero (poly : Byte) (n : Nat) : crcBits poly n 0#8 = 0#8 := by
  induction n with
  | zero => rfl
  | succ n ih => simpa [crcBits] using ih

/-- R112: the byte cancels an equal accumulator. -/
@[simp] theorem crcByte_self (poly a : Byte) : crcByte poly a a = 0#8 := by
  simp [crcByte]

@[simp] theorem crcFrom_nil (poly a : Byte) : crcFrom poly a [] = a := rfl

@[simp] theorem crcFrom_cons (poly a b : Byte) (data : List Byte) :
    crcFrom poly a (b :: data) = crcFrom poly (crcByte poly a b) data := rfl

theorem crcFrom_append (poly a : Byte) (d e : List Byte) :
    crcFrom poly a (d ++ e) = crcFrom poly (crcFrom poly a d) e := by
  simp [crcFrom]

/-- R114 (a): the checksum of the empty sequence. -/
@[simp] theorem crc8_nil (c : Config) : crc8 c [] = c.init := rfl

@[simp] theorem groupEnc_length (c : Config) (p : Word) : (groupEnc c p).length = 3 := rfl

@[simp] theorem cmdAsm_nil (c : Config) (code : Word) : cmdAsm c code [] = wordBytes code := by
  simp [cmdAsm]

/-- R131: a frame with g groups has 2 + 3·g bytes. -/
theorem cmdAsm_length (c : Config) (code : Word) (payload : List Word) :
    (cmdAsm c code payload).length = 2 + 3 * payload.length := by
  induction payload with
  | nil => simp [wordBytes]
  | cons p ps ih => simp [cmdAsm, wordBytes] at ih ⊢; omega

/-- R134: an accepted frame gives as many words as were asked for. -/
theorem frameValFrom_length {c : Config} {w i : Nat} {rx : List Byte} {words : List Word}
    (h : frameValFrom c w i rx = .ok words) : words.length = w := by
  induction w generalizing i rx words with
  | zero => simp_all [frameValFrom]
  | succ w ih =>
    match rx with
    | b0 :: b1 :: k :: rest =>
      simp only [frameValFrom] at h
      split at h
      · split at h
        · next hw => cases h; simpa using ih hw
        · cases h
      · cases h
    | [] | [_] | [_, _] => simp [frameValFrom] at h

theorem frameVal_length {c : Config} {w : Nat} {rx : List Byte} {words : List Word}
    (h : frameVal c w rx = .ok words) : words.length = w :=
  frameValFrom_length h

/-- The comparisons are those of the words, among the first w, of which all three bytes are there. -/
theorem frameChecks_whole (c : Config) (w i : Nat) (rx : List Byte) :
    frameChecks c w i rx = frameChecks c (min w (rx.length / 3)) i rx := by
  induction w generalizing i rx with
  | zero => simp
  | succ w ih =>
    match rx with
    | b0 :: b1 :: k :: rest =>
      have e : min (w + 1) ((b0 :: b1 :: k :: rest).length / 3) = min w (rest.length / 3) + 1 := by
        simp only [List.length_cons]; omega
      rw [e, frameChecks, frameChecks, ← ih]
    | [] | [_] | [_, _] => simp [frameChecks]

/-- There is a comparison exactly when there is a word to compare. -/
theorem bitcntAfter_frameChecks (c : Config) (w i : Nat) (rx : List Byte) (b : BitVec 3) :
    bitcntAfter (frameChecks c w i rx).length b = bitcntAfter (min w (rx.length / 3)) b := by
  rw [frameChecks_whole]
  cases h : min w (rx.length / 3) with
  | zero => rfl
  | succ n =>
    match rx with
    | b0 :: b1 :: k :: rest => simp [frameChecks, bitcntAfter]
    | [] | [_] | [_, _] => simp at h

@[simp] theorem accAfterGroups_nil (c : Config) (a : Byte) : accAfterGroups c a [] = a := rfl

@[simp] theorem accAfterGroups_single (c : Config) (a : Byte) (p : Word) :
    accAfterGroups c a [p] = crc8 c (wordBytes p) := rfl

@[simp] theorem bitcntAfter_zero (b : BitVec 3) : bitcntAfter 0 b = b := rfl

@[simp] theorem bitcntAfter_succ (n : Nat) (b : BitVec 3) : bitcntAfter (n + 1) b = 0 := rfl

theorem traceEvents_off {c : Config} (h : c.traceEn = false) (l : List Check) :
    traceEvents c l = [] := by
  simp [traceEvents, h]

/-- R177: the range check as a bound. -/
theorem humInRange_iff (a : Nat) : humInRange a = true ↔ a ≤ 256000 := by
  unfold humInRange
  exact decide_eq_true_iff

/-- The operand of a request within its width is all carried (R28, R32). -/
theorem argBits_of_lt {c : Config} {a : Nat} (h : a < 2 ^ c.argWidth) : argBits c a = a :=
  Nat.mod_eq_of_lt h

/-- R177: an operand in range is all carried at the default width. -/
theorem argBits_of_inRange {a : Nat} (h : a ≤ 256000) : argBits Config.sg33 a = a :=
  argBits_of_lt (show a < 2 ^ 32 by omega)

/-- The bits a request carries are within the width. -/
theorem argBits_lt (c : Config) (a : Nat) : argBits c a < 2 ^ c.argWidth :=
  Nat.mod_lt _ (Nat.two_pow_pos _)

/-- R133 as a number: the first byte has the weight 256. -/
theorem wordDec_toNat (b0 b1 : Byte) : (wordDec b0 b1).toNat = b0.toNat * 256 + b1.toNat := by
  have h0 : b0.toNat < 256 := b0.isLt
  have h1 : b1.toNat < 2 ^ 8 := b1.isLt
  have key : b0.toNat <<< 8 ||| b1.toNat = b0.toNat <<< 8 + b1.toNat :=
    (Nat.shiftLeft_add_eq_or_of_lt h1 _).symm
  have e0 : b0.toNat % 65536 = b0.toNat := by omega
  have e1 : b1.toNat % 65536 = b1.toNat := by omega
  have e2 : b0.toNat <<< 8 % 65536 = b0.toNat <<< 8 := by
    rw [Nat.shiftLeft_eq]; omega
  simp only [wordDec, BitVec.toNat_or, BitVec.toNat_shiftLeft, BitVec.toNat_setWidth]
  norm_num only
  rw [e0, e1, e2, key, Nat.shiftLeft_eq]

/-- R59: the first byte on the wire as a number. -/
theorem hiByte_toNat (w : Word) : (hiByte w).toNat = w.toNat / 256 := by
  have : w.toNat < 65536 := w.isLt
  simp only [hiByte, BitVec.extractLsb'_toNat, Nat.shiftRight_eq_div_pow]
  omega

/-- R59: the second byte on the wire as a number. -/
theorem loByte_toNat (w : Word) : (loByte w).toNat = w.toNat % 256 := by
  simp only [loByte, BitVec.extractLsb'_toNat, Nat.shiftRight_eq_div_pow]
  omega

/-- The word decoder takes the two bytes of a word back to it (R87). -/
@[simp] theorem wordDec_bytes (w : Word) : wordDec (hiByte w) (loByte w) = w := by
  apply BitVec.eq_of_toNat_eq
  rw [wordDec_toNat, hiByte_toNat, loByte_toNat]
  omega

@[simp] theorem hiByte_wordDec (b0 b1 : Byte) : hiByte (wordDec b0 b1) = b0 := by
  have h1 : b1.toNat < 256 := b1.isLt
  apply BitVec.eq_of_toNat_eq
  rw [hiByte_toNat, wordDec_toNat]
  omega

@[simp] theorem loByte_wordDec (b0 b1 : Byte) : loByte (wordDec b0 b1) = b1 := by
  have h1 : b1.toNat < 256 := b1.isLt
  apply BitVec.eq_of_toNat_eq
  rw [loByte_toNat, wordDec_toNat]
  omega

end Sys2Proof.Machine
end

