-- ==== Sys2Proof/Laws/State.lean ====
section
/-! SUPPORT. One lemma per field per named update of State, each true by rfl, so that no later proof unfolds a record
update. -/

namespace Sys2Proof.Machine

section Updates

variable (s : State)

@[simp] theorem State.emit_eco2 (e : Event) : (s.emit e).eco2 = s.eco2 := rfl
@[simp] theorem State.emit_tvoc (e : Event) : (s.emit e).tvoc = s.tvoc := rfl
@[simp] theorem State.emit_rawH2 (e : Event) : (s.emit e).rawH2 = s.rawH2 := rfl
@[simp] theorem State.emit_rawEth (e : Event) : (s.emit e).rawEth = s.rawEth := rfl
@[simp] theorem State.emit_ready (e : Event) : (s.emit e).ready = s.ready := rfl
@[simp] theorem State.emit_cacc (e : Event) : (s.emit e).cacc = s.cacc := rfl
@[simp] theorem State.emit_busy (e : Event) : (s.emit e).busy = s.busy := rfl
@[simp] theorem State.emit_phase (e : Event) : (s.emit e).phase = s.phase := rfl
@[simp] theorem State.emit_substep (e : Event) : (s.emit e).substep = s.substep := rfl
@[simp] theorem State.emit_arg (e : Event) : (s.emit e).arg = s.arg := rfl
@[simp] theorem State.emit_txbuf (e : Event) : (s.emit e).txbuf = s.txbuf := rfl
@[simp] theorem State.emit_rxbuf (e : Event) : (s.emit e).rxbuf = s.rxbuf := rfl
@[simp] theorem State.emit_acc (e : Event) : (s.emit e).acc = s.acc := rfl
@[simp] theorem State.emit_bitcnt (e : Event) : (s.emit e).bitcnt = s.bitcnt := rfl
@[simp] theorem State.emit_job (e : Event) : (s.emit e).job = s.job := rfl
@[simp] theorem State.emit_pending (e : Event) : (s.emit e).pending = s.pending := rfl
@[simp] theorem State.emit_rst (e : Event) : (s.emit e).rst = s.rst := rfl
@[simp] theorem State.emit_reqs (e : Event) : (s.emit e).reqs = s.reqs := rfl
@[simp] theorem State.emit_writeAnswers (e : Event) : (s.emit e).writeAnswers = s.writeAnswers := rfl
@[simp] theorem State.emit_wakeups (e : Event) : (s.emit e).wakeups = s.wakeups := rfl
@[simp] theorem State.emit_readAnswers (e : Event) : (s.emit e).readAnswers = s.readAnswers := rfl
@[simp] theorem State.emit_out (e : Event) : (s.emit e).out = s.out ++ [e] := rfl
@[simp] theorem State.emit_resets (e : Event) : (s.emit e).resets = s.resets := rfl

@[simp] theorem State.reply_eco2 (r : Response) : (s.reply r).eco2 = s.eco2 := rfl
@[simp] theorem State.reply_tvoc (r : Response) : (s.reply r).tvoc = s.tvoc := rfl
@[simp] theorem State.reply_rawH2 (r : Response) : (s.reply r).rawH2 = s.rawH2 := rfl
@[simp] theorem State.reply_rawEth (r : Response) : (s.reply r).rawEth = s.rawEth := rfl
@[simp] theorem State.reply_ready (r : Response) : (s.reply r).ready = s.ready := rfl
@[simp] theorem State.reply_cacc (r : Response) : (s.reply r).cacc = s.cacc := rfl
@[simp] theorem State.reply_busy (r : Response) : (s.reply r).busy = s.busy := rfl
@[simp] theorem State.reply_phase (r : Response) : (s.reply r).phase = s.phase := rfl
@[simp] theorem State.reply_substep (r : Response) : (s.reply r).substep = s.substep := rfl
@[simp] theorem State.reply_arg (r : Response) : (s.reply r).arg = s.arg := rfl
@[simp] theorem State.reply_txbuf (r : Response) : (s.reply r).txbuf = s.txbuf := rfl
@[simp] theorem State.reply_rxbuf (r : Response) : (s.reply r).rxbuf = s.rxbuf := rfl
@[simp] theorem State.reply_acc (r : Response) : (s.reply r).acc = s.acc := rfl
@[simp] theorem State.reply_bitcnt (r : Response) : (s.reply r).bitcnt = s.bitcnt := rfl
@[simp] theorem State.reply_job (r : Response) : (s.reply r).job = s.job := rfl
@[simp] theorem State.reply_pending (r : Response) : (s.reply r).pending = s.pending := rfl
@[simp] theorem State.reply_rst (r : Response) : (s.reply r).rst = s.rst := rfl
@[simp] theorem State.reply_reqs (r : Response) : (s.reply r).reqs = s.reqs := rfl
@[simp] theorem State.reply_writeAnswers (r : Response) : (s.reply r).writeAnswers = s.writeAnswers := rfl
@[simp] theorem State.reply_wakeups (r : Response) : (s.reply r).wakeups = s.wakeups := rfl
@[simp] theorem State.reply_readAnswers (r : Response) : (s.reply r).readAnswers = s.readAnswers := rfl
@[simp] theorem State.reply_out (r : Response) : (s.reply r).out = s.out ++ [.response r] := rfl
@[simp] theorem State.reply_resets (r : Response) : (s.reply r).resets = s.resets := rfl

@[simp] theorem State.complete_eco2 (r : Response) : (s.complete r).eco2 = s.eco2 := rfl
@[simp] theorem State.complete_tvoc (r : Response) : (s.complete r).tvoc = s.tvoc := rfl
@[simp] theorem State.complete_rawH2 (r : Response) : (s.complete r).rawH2 = s.rawH2 := rfl
@[simp] theorem State.complete_rawEth (r : Response) : (s.complete r).rawEth = s.rawEth := rfl
@[simp] theorem State.complete_ready (r : Response) : (s.complete r).ready = s.ready := rfl
@[simp] theorem State.complete_cacc (r : Response) : (s.complete r).cacc = s.cacc := rfl
@[simp] theorem State.complete_busy (r : Response) : (s.complete r).busy = false := rfl
@[simp] theorem State.complete_phase (r : Response) : (s.complete r).phase = .idle := rfl
@[simp] theorem State.complete_substep (r : Response) : (s.complete r).substep = s.substep := rfl
@[simp] theorem State.complete_arg (r : Response) : (s.complete r).arg = s.arg := rfl
@[simp] theorem State.complete_txbuf (r : Response) : (s.complete r).txbuf = [] := rfl
@[simp] theorem State.complete_rxbuf (r : Response) : (s.complete r).rxbuf = [] := rfl
@[simp] theorem State.complete_acc (r : Response) : (s.complete r).acc = s.acc := rfl
@[simp] theorem State.complete_bitcnt (r : Response) : (s.complete r).bitcnt = s.bitcnt := rfl
@[simp] theorem State.complete_job (r : Response) : (s.complete r).job = none := rfl
@[simp] theorem State.complete_pending (r : Response) : (s.complete r).pending = none := rfl
@[simp] theorem State.complete_rst (r : Response) : (s.complete r).rst = s.rst := rfl
@[simp] theorem State.complete_reqs (r : Response) : (s.complete r).reqs = s.reqs := rfl
@[simp] theorem State.complete_writeAnswers (r : Response) : (s.complete r).writeAnswers = s.writeAnswers := rfl
@[simp] theorem State.complete_wakeups (r : Response) : (s.complete r).wakeups = s.wakeups := rfl
@[simp] theorem State.complete_readAnswers (r : Response) : (s.complete r).readAnswers = s.readAnswers := rfl
@[simp] theorem State.complete_out (r : Response) : (s.complete r).out = s.out ++ [.response r] := rfl
@[simp] theorem State.complete_resets (r : Response) : (s.complete r).resets = s.resets := rfl

@[simp] theorem State.raise_eco2 (k : Cause) : (s.raise k).eco2 = s.eco2 := rfl
@[simp] theorem State.raise_tvoc (k : Cause) : (s.raise k).tvoc = s.tvoc := rfl
@[simp] theorem State.raise_rawH2 (k : Cause) : (s.raise k).rawH2 = s.rawH2 := rfl
@[simp] theorem State.raise_rawEth (k : Cause) : (s.raise k).rawEth = s.rawEth := rfl
@[simp] theorem State.raise_ready (k : Cause) : (s.raise k).ready = s.ready := rfl
@[simp] theorem State.raise_cacc (k : Cause) : (s.raise k).cacc = s.cacc := rfl
@[simp] theorem State.raise_busy (k : Cause) : (s.raise k).busy = s.busy := rfl
@[simp] theorem State.raise_phase (k : Cause) : (s.raise k).phase = .respond := rfl
@[simp] theorem State.raise_substep (k : Cause) : (s.raise k).substep = s.substep := rfl
@[simp] theorem State.raise_arg (k : Cause) : (s.raise k).arg = s.arg := rfl
@[simp] theorem State.raise_txbuf (k : Cause) : (s.raise k).txbuf = s.txbuf := rfl
@[simp] theorem State.raise_rxbuf (k : Cause) : (s.raise k).rxbuf = s.rxbuf := rfl
@[simp] theorem State.raise_acc (k : Cause) : (s.raise k).acc = s.acc := rfl
@[simp] theorem State.raise_bitcnt (k : Cause) : (s.raise k).bitcnt = s.bitcnt := rfl
@[simp] theorem State.raise_job (k : Cause) : (s.raise k).job = s.job := rfl
@[simp] theorem State.raise_pending (k : Cause) : (s.raise k).pending = some (.fail k) := rfl
@[simp] theorem State.raise_rst (k : Cause) : (s.raise k).rst = s.rst := rfl
@[simp] theorem State.raise_reqs (k : Cause) : (s.raise k).reqs = s.reqs := rfl
@[simp] theorem State.raise_writeAnswers (k : Cause) : (s.raise k).writeAnswers = s.writeAnswers := rfl
@[simp] theorem State.raise_wakeups (k : Cause) : (s.raise k).wakeups = s.wakeups := rfl
@[simp] theorem State.raise_readAnswers (k : Cause) : (s.raise k).readAnswers = s.readAnswers := rfl
@[simp] theorem State.raise_out (k : Cause) : (s.raise k).out = s.out := rfl
@[simp] theorem State.raise_resets (k : Cause) : (s.raise k).resets = s.resets := rfl

@[simp] theorem State.succeed_eco2 (l : List Word) : (s.succeed l).eco2 = s.eco2 := rfl
@[simp] theorem State.succeed_tvoc (l : List Word) : (s.succeed l).tvoc = s.tvoc := rfl
@[simp] theorem State.succeed_rawH2 (l : List Word) : (s.succeed l).rawH2 = s.rawH2 := rfl
@[simp] theorem State.succeed_rawEth (l : List Word) : (s.succeed l).rawEth = s.rawEth := rfl
@[simp] theorem State.succeed_ready (l : List Word) : (s.succeed l).ready = s.ready := rfl
@[simp] theorem State.succeed_cacc (l : List Word) : (s.succeed l).cacc = s.cacc := rfl
@[simp] theorem State.succeed_busy (l : List Word) : (s.succeed l).busy = s.busy := rfl
@[simp] theorem State.succeed_phase (l : List Word) : (s.succeed l).phase = .respond := rfl
@[simp] theorem State.succeed_substep (l : List Word) : (s.succeed l).substep = s.substep := rfl
@[simp] theorem State.succeed_arg (l : List Word) : (s.succeed l).arg = s.arg := rfl
@[simp] theorem State.succeed_txbuf (l : List Word) : (s.succeed l).txbuf = s.txbuf := rfl
@[simp] theorem State.succeed_rxbuf (l : List Word) : (s.succeed l).rxbuf = s.rxbuf := rfl
@[simp] theorem State.succeed_acc (l : List Word) : (s.succeed l).acc = s.acc := rfl
@[simp] theorem State.succeed_bitcnt (l : List Word) : (s.succeed l).bitcnt = s.bitcnt := rfl
@[simp] theorem State.succeed_job (l : List Word) : (s.succeed l).job = s.job := rfl
@[simp] theorem State.succeed_pending (l : List Word) : (s.succeed l).pending = some (.ok l) := rfl
@[simp] theorem State.succeed_rst (l : List Word) : (s.succeed l).rst = s.rst := rfl
@[simp] theorem State.succeed_reqs (l : List Word) : (s.succeed l).reqs = s.reqs := rfl
@[simp] theorem State.succeed_writeAnswers (l : List Word) : (s.succeed l).writeAnswers = s.writeAnswers := rfl
@[simp] theorem State.succeed_wakeups (l : List Word) : (s.succeed l).wakeups = s.wakeups := rfl
@[simp] theorem State.succeed_readAnswers (l : List Word) : (s.succeed l).readAnswers = s.readAnswers := rfl
@[simp] theorem State.succeed_out (l : List Word) : (s.succeed l).out = s.out := rfl
@[simp] theorem State.succeed_resets (l : List Word) : (s.succeed l).resets = s.resets := rfl

@[simp] theorem State.latchArg_eco2 (a : Nat) : (s.latchArg a).eco2 = s.eco2 := rfl
@[simp] theorem State.latchArg_tvoc (a : Nat) : (s.latchArg a).tvoc = s.tvoc := rfl
@[simp] theorem State.latchArg_rawH2 (a : Nat) : (s.latchArg a).rawH2 = s.rawH2 := rfl
@[simp] theorem State.latchArg_rawEth (a : Nat) : (s.latchArg a).rawEth = s.rawEth := rfl
@[simp] theorem State.latchArg_ready (a : Nat) : (s.latchArg a).ready = s.ready := rfl
@[simp] theorem State.latchArg_cacc (a : Nat) : (s.latchArg a).cacc = s.cacc := rfl
@[simp] theorem State.latchArg_busy (a : Nat) : (s.latchArg a).busy = s.busy := rfl
@[simp] theorem State.latchArg_phase (a : Nat) : (s.latchArg a).phase = s.phase := rfl
@[simp] theorem State.latchArg_substep (a : Nat) : (s.latchArg a).substep = s.substep := rfl
@[simp] theorem State.latchArg_arg (a : Nat) : (s.latchArg a).arg = a := rfl
@[simp] theorem State.latchArg_txbuf (a : Nat) : (s.latchArg a).txbuf = s.txbuf := rfl
@[simp] theorem State.latchArg_rxbuf (a : Nat) : (s.latchArg a).rxbuf = s.rxbuf := rfl
@[simp] theorem State.latchArg_acc (a : Nat) : (s.latchArg a).acc = s.acc := rfl
@[simp] theorem State.latchArg_bitcnt (a : Nat) : (s.latchArg a).bitcnt = s.bitcnt := rfl
@[simp] theorem State.latchArg_job (a : Nat) : (s.latchArg a).job = s.job := rfl
@[simp] theorem State.latchArg_pending (a : Nat) : (s.latchArg a).pending = s.pending := rfl
@[simp] theorem State.latchArg_rst (a : Nat) : (s.latchArg a).rst = s.rst := rfl
@[simp] theorem State.latchArg_reqs (a : Nat) : (s.latchArg a).reqs = s.reqs := rfl
@[simp] theorem State.latchArg_writeAnswers (a : Nat) : (s.latchArg a).writeAnswers = s.writeAnswers := rfl
@[simp] theorem State.latchArg_wakeups (a : Nat) : (s.latchArg a).wakeups = s.wakeups := rfl
@[simp] theorem State.latchArg_readAnswers (a : Nat) : (s.latchArg a).readAnswers = s.readAnswers := rfl
@[simp] theorem State.latchArg_out (a : Nat) : (s.latchArg a).out = s.out := rfl
@[simp] theorem State.latchArg_resets (a : Nat) : (s.latchArg a).resets = s.resets := rfl

@[simp] theorem State.setAcc_eco2 (a : Byte) : (s.setAcc a).eco2 = s.eco2 := rfl
@[simp] theorem State.setAcc_tvoc (a : Byte) : (s.setAcc a).tvoc = s.tvoc := rfl
@[simp] theorem State.setAcc_rawH2 (a : Byte) : (s.setAcc a).rawH2 = s.rawH2 := rfl
@[simp] theorem State.setAcc_rawEth (a : Byte) : (s.setAcc a).rawEth = s.rawEth := rfl
@[simp] theorem State.setAcc_ready (a : Byte) : (s.setAcc a).ready = s.ready := rfl
@[simp] theorem State.setAcc_cacc (a : Byte) : (s.setAcc a).cacc = s.cacc := rfl
@[simp] theorem State.setAcc_busy (a : Byte) : (s.setAcc a).busy = s.busy := rfl
@[simp] theorem State.setAcc_phase (a : Byte) : (s.setAcc a).phase = s.phase := rfl
@[simp] theorem State.setAcc_substep (a : Byte) : (s.setAcc a).substep = s.substep := rfl
@[simp] theorem State.setAcc_arg (a : Byte) : (s.setAcc a).arg = s.arg := rfl
@[simp] theorem State.setAcc_txbuf (a : Byte) : (s.setAcc a).txbuf = s.txbuf := rfl
@[simp] theorem State.setAcc_rxbuf (a : Byte) : (s.setAcc a).rxbuf = s.rxbuf := rfl
@[simp] theorem State.setAcc_acc (a : Byte) : (s.setAcc a).acc = a := rfl
@[simp] theorem State.setAcc_bitcnt (a : Byte) : (s.setAcc a).bitcnt = 0 := rfl
@[simp] theorem State.setAcc_job (a : Byte) : (s.setAcc a).job = s.job := rfl
@[simp] theorem State.setAcc_pending (a : Byte) : (s.setAcc a).pending = s.pending := rfl
@[simp] theorem State.setAcc_rst (a : Byte) : (s.setAcc a).rst = s.rst := rfl
@[simp] theorem State.setAcc_reqs (a : Byte) : (s.setAcc a).reqs = s.reqs := rfl
@[simp] theorem State.setAcc_writeAnswers (a : Byte) : (s.setAcc a).writeAnswers = s.writeAnswers := rfl
@[simp] theorem State.setAcc_wakeups (a : Byte) : (s.setAcc a).wakeups = s.wakeups := rfl
@[simp] theorem State.setAcc_readAnswers (a : Byte) : (s.setAcc a).readAnswers = s.readAnswers := rfl
@[simp] theorem State.setAcc_out (a : Byte) : (s.setAcc a).out = s.out := rfl
@[simp] theorem State.setAcc_resets (a : Byte) : (s.setAcc a).resets = s.resets := rfl

@[simp] theorem State.storeMeas_eco2 (l : List Word) : (s.storeMeas l).eco2 = l.getD 0 s.eco2 := rfl
@[simp] theorem State.storeMeas_tvoc (l : List Word) : (s.storeMeas l).tvoc = l.getD 1 s.tvoc := rfl
@[simp] theorem State.storeMeas_rawH2 (l : List Word) : (s.storeMeas l).rawH2 = s.rawH2 := rfl
@[simp] theorem State.storeMeas_rawEth (l : List Word) : (s.storeMeas l).rawEth = s.rawEth := rfl
@[simp] theorem State.storeMeas_ready (l : List Word) : (s.storeMeas l).ready = s.ready := rfl
@[simp] theorem State.storeMeas_cacc (l : List Word) : (s.storeMeas l).cacc = s.cacc := rfl
@[simp] theorem State.storeMeas_busy (l : List Word) : (s.storeMeas l).busy = s.busy := rfl
@[simp] theorem State.storeMeas_phase (l : List Word) : (s.storeMeas l).phase = s.phase := rfl
@[simp] theorem State.storeMeas_substep (l : List Word) : (s.storeMeas l).substep = s.substep := rfl
@[simp] theorem State.storeMeas_arg (l : List Word) : (s.storeMeas l).arg = s.arg := rfl
@[simp] theorem State.storeMeas_txbuf (l : List Word) : (s.storeMeas l).txbuf = s.txbuf := rfl
@[simp] theorem State.storeMeas_rxbuf (l : List Word) : (s.storeMeas l).rxbuf = s.rxbuf := rfl
@[simp] theorem State.storeMeas_acc (l : List Word) : (s.storeMeas l).acc = s.acc := rfl
@[simp] theorem State.storeMeas_bitcnt (l : List Word) : (s.storeMeas l).bitcnt = s.bitcnt := rfl
@[simp] theorem State.storeMeas_job (l : List Word) : (s.storeMeas l).job = s.job := rfl
@[simp] theorem State.storeMeas_pending (l : List Word) : (s.storeMeas l).pending = s.pending := rfl
@[simp] theorem State.storeMeas_rst (l : List Word) : (s.storeMeas l).rst = s.rst := rfl
@[simp] theorem State.storeMeas_reqs (l : List Word) : (s.storeMeas l).reqs = s.reqs := rfl
@[simp] theorem State.storeMeas_writeAnswers (l : List Word) : (s.storeMeas l).writeAnswers = s.writeAnswers := rfl
@[simp] theorem State.storeMeas_wakeups (l : List Word) : (s.storeMeas l).wakeups = s.wakeups := rfl
@[simp] theorem State.storeMeas_readAnswers (l : List Word) : (s.storeMeas l).readAnswers = s.readAnswers := rfl
@[simp] theorem State.storeMeas_out (l : List Word) : (s.storeMeas l).out = s.out := rfl
@[simp] theorem State.storeMeas_resets (l : List Word) : (s.storeMeas l).resets = s.resets := rfl

@[simp] theorem State.storeRaw_eco2 (l : List Word) : (s.storeRaw l).eco2 = s.eco2 := rfl
@[simp] theorem State.storeRaw_tvoc (l : List Word) : (s.storeRaw l).tvoc = s.tvoc := rfl
@[simp] theorem State.storeRaw_rawH2 (l : List Word) : (s.storeRaw l).rawH2 = l.getD 0 s.rawH2 := rfl
@[simp] theorem State.storeRaw_rawEth (l : List Word) : (s.storeRaw l).rawEth = l.getD 1 s.rawEth := rfl
@[simp] theorem State.storeRaw_ready (l : List Word) : (s.storeRaw l).ready = s.ready := rfl
@[simp] theorem State.storeRaw_cacc (l : List Word) : (s.storeRaw l).cacc = s.cacc := rfl
@[simp] theorem State.storeRaw_busy (l : List Word) : (s.storeRaw l).busy = s.busy := rfl
@[simp] theorem State.storeRaw_phase (l : List Word) : (s.storeRaw l).phase = s.phase := rfl
@[simp] theorem State.storeRaw_substep (l : List Word) : (s.storeRaw l).substep = s.substep := rfl
@[simp] theorem State.storeRaw_arg (l : List Word) : (s.storeRaw l).arg = s.arg := rfl
@[simp] theorem State.storeRaw_txbuf (l : List Word) : (s.storeRaw l).txbuf = s.txbuf := rfl
@[simp] theorem State.storeRaw_rxbuf (l : List Word) : (s.storeRaw l).rxbuf = s.rxbuf := rfl
@[simp] theorem State.storeRaw_acc (l : List Word) : (s.storeRaw l).acc = s.acc := rfl
@[simp] theorem State.storeRaw_bitcnt (l : List Word) : (s.storeRaw l).bitcnt = s.bitcnt := rfl
@[simp] theorem State.storeRaw_job (l : List Word) : (s.storeRaw l).job = s.job := rfl
@[simp] theorem State.storeRaw_pending (l : List Word) : (s.storeRaw l).pending = s.pending := rfl
@[simp] theorem State.storeRaw_rst (l : List Word) : (s.storeRaw l).rst = s.rst := rfl
@[simp] theorem State.storeRaw_reqs (l : List Word) : (s.storeRaw l).reqs = s.reqs := rfl
@[simp] theorem State.storeRaw_writeAnswers (l : List Word) : (s.storeRaw l).writeAnswers = s.writeAnswers := rfl
@[simp] theorem State.storeRaw_wakeups (l : List Word) : (s.storeRaw l).wakeups = s.wakeups := rfl
@[simp] theorem State.storeRaw_readAnswers (l : List Word) : (s.storeRaw l).readAnswers = s.readAnswers := rfl
@[simp] theorem State.storeRaw_out (l : List Word) : (s.storeRaw l).out = s.out := rfl
@[simp] theorem State.storeRaw_resets (l : List Word) : (s.storeRaw l).resets = s.resets := rfl

@[simp] theorem State.start_eco2 (j : Job) : (s.start j).eco2 = s.eco2 := rfl
@[simp] theorem State.start_tvoc (j : Job) : (s.start j).tvoc = s.tvoc := rfl
@[simp] theorem State.start_rawH2 (j : Job) : (s.start j).rawH2 = s.rawH2 := rfl
@[simp] theorem State.start_rawEth (j : Job) : (s.start j).rawEth = s.rawEth := rfl
@[simp] theorem State.start_ready (j : Job) : (s.start j).ready = s.ready := rfl
@[simp] theorem State.start_cacc (j : Job) : (s.start j).cacc = s.cacc := rfl
@[simp] theorem State.start_busy (j : Job) : (s.start j).busy = true := rfl
@[simp] theorem State.start_phase (j : Job) : (s.start j).phase = .assemble := rfl
@[simp] theorem State.start_substep (j : Job) : (s.start j).substep = s.substep := rfl
@[simp] theorem State.start_arg (j : Job) : (s.start j).arg = s.arg := rfl
@[simp] theorem State.start_txbuf (j : Job) : (s.start j).txbuf = s.txbuf := rfl
@[simp] theorem State.start_rxbuf (j : Job) : (s.start j).rxbuf = s.rxbuf := rfl
@[simp] theorem State.start_acc (j : Job) : (s.start j).acc = s.acc := rfl
@[simp] theorem State.start_bitcnt (j : Job) : (s.start j).bitcnt = s.bitcnt := rfl
@[simp] theorem State.start_job (j : Job) : (s.start j).job = some j := rfl
@[simp] theorem State.start_pending (j : Job) : (s.start j).pending = none := rfl
@[simp] theorem State.start_rst (j : Job) : (s.start j).rst = s.rst := rfl
@[simp] theorem State.start_reqs (j : Job) : (s.start j).reqs = s.reqs := rfl
@[simp] theorem State.start_writeAnswers (j : Job) : (s.start j).writeAnswers = s.writeAnswers := rfl
@[simp] theorem State.start_wakeups (j : Job) : (s.start j).wakeups = s.wakeups := rfl
@[simp] theorem State.start_readAnswers (j : Job) : (s.start j).readAnswers = s.readAnswers := rfl
@[simp] theorem State.start_out (j : Job) : (s.start j).out = s.out := rfl
@[simp] theorem State.start_resets (j : Job) : (s.start j).resets = s.resets := rfl

@[simp] theorem State.nextSubstep_eco2 (u : Substep) : (s.nextSubstep u).eco2 = s.eco2 := rfl
@[simp] theorem State.nextSubstep_tvoc (u : Substep) : (s.nextSubstep u).tvoc = s.tvoc := rfl
@[simp] theorem State.nextSubstep_rawH2 (u : Substep) : (s.nextSubstep u).rawH2 = s.rawH2 := rfl
@[simp] theorem State.nextSubstep_rawEth (u : Substep) : (s.nextSubstep u).rawEth = s.rawEth := rfl
@[simp] theorem State.nextSubstep_ready (u : Substep) : (s.nextSubstep u).ready = s.ready := rfl
@[simp] theorem State.nextSubstep_cacc (u : Substep) : (s.nextSubstep u).cacc = s.cacc := rfl
@[simp] theorem State.nextSubstep_busy (u : Substep) : (s.nextSubstep u).busy = s.busy := rfl
@[simp] theorem State.nextSubstep_phase (u : Substep) : (s.nextSubstep u).phase = .assemble := rfl
@[simp] theorem State.nextSubstep_substep (u : Substep) : (s.nextSubstep u).substep = u := rfl
@[simp] theorem State.nextSubstep_arg (u : Substep) : (s.nextSubstep u).arg = s.arg := rfl
@[simp] theorem State.nextSubstep_txbuf (u : Substep) : (s.nextSubstep u).txbuf = s.txbuf := rfl
@[simp] theorem State.nextSubstep_rxbuf (u : Substep) : (s.nextSubstep u).rxbuf = s.rxbuf := rfl
@[simp] theorem State.nextSubstep_acc (u : Substep) : (s.nextSubstep u).acc = s.acc := rfl
@[simp] theorem State.nextSubstep_bitcnt (u : Substep) : (s.nextSubstep u).bitcnt = s.bitcnt := rfl
@[simp] theorem State.nextSubstep_job (u : Substep) : (s.nextSubstep u).job = s.job := rfl
@[simp] theorem State.nextSubstep_pending (u : Substep) : (s.nextSubstep u).pending = none := rfl
@[simp] theorem State.nextSubstep_rst (u : Substep) : (s.nextSubstep u).rst = s.rst := rfl
@[simp] theorem State.nextSubstep_reqs (u : Substep) : (s.nextSubstep u).reqs = s.reqs := rfl
@[simp] theorem State.nextSubstep_writeAnswers (u : Substep) : (s.nextSubstep u).writeAnswers = s.writeAnswers := rfl
@[simp] theorem State.nextSubstep_wakeups (u : Substep) : (s.nextSubstep u).wakeups = s.wakeups := rfl
@[simp] theorem State.nextSubstep_readAnswers (u : Substep) : (s.nextSubstep u).readAnswers = s.readAnswers := rfl
@[simp] theorem State.nextSubstep_out (u : Substep) : (s.nextSubstep u).out = s.out := rfl
@[simp] theorem State.nextSubstep_resets (u : Substep) : (s.nextSubstep u).resets = s.resets := rfl

@[simp] theorem State.checked_eco2 (c : Config) (l : List Check) : (State.checked c s l).eco2 = s.eco2 := rfl
@[simp] theorem State.checked_tvoc (c : Config) (l : List Check) : (State.checked c s l).tvoc = s.tvoc := rfl
@[simp] theorem State.checked_rawH2 (c : Config) (l : List Check) : (State.checked c s l).rawH2 = s.rawH2 := rfl
@[simp] theorem State.checked_rawEth (c : Config) (l : List Check) : (State.checked c s l).rawEth = s.rawEth := rfl
@[simp] theorem State.checked_ready (c : Config) (l : List Check) : (State.checked c s l).ready = s.ready := rfl
@[simp] theorem State.checked_cacc (c : Config) (l : List Check) : (State.checked c s l).cacc = s.cacc := rfl
@[simp] theorem State.checked_busy (c : Config) (l : List Check) : (State.checked c s l).busy = s.busy := rfl
@[simp] theorem State.checked_phase (c : Config) (l : List Check) : (State.checked c s l).phase = s.phase := rfl
@[simp] theorem State.checked_substep (c : Config) (l : List Check) : (State.checked c s l).substep = s.substep := rfl
@[simp] theorem State.checked_arg (c : Config) (l : List Check) : (State.checked c s l).arg = s.arg := rfl
@[simp] theorem State.checked_txbuf (c : Config) (l : List Check) : (State.checked c s l).txbuf = s.txbuf := rfl
@[simp] theorem State.checked_rxbuf (c : Config) (l : List Check) : (State.checked c s l).rxbuf = s.rxbuf := rfl
@[simp] theorem State.checked_acc (c : Config) (l : List Check) : (State.checked c s l).acc = accAfterChecks s.acc l := rfl
@[simp] theorem State.checked_bitcnt (c : Config) (l : List Check) : (State.checked c s l).bitcnt = bitcntAfter l.length s.bitcnt := rfl
@[simp] theorem State.checked_job (c : Config) (l : List Check) : (State.checked c s l).job = s.job := rfl
@[simp] theorem State.checked_pending (c : Config) (l : List Check) : (State.checked c s l).pending = s.pending := rfl
@[simp] theorem State.checked_rst (c : Config) (l : List Check) : (State.checked c s l).rst = s.rst := rfl
@[simp] theorem State.checked_reqs (c : Config) (l : List Check) : (State.checked c s l).reqs = s.reqs := rfl
@[simp] theorem State.checked_writeAnswers (c : Config) (l : List Check) : (State.checked c s l).writeAnswers = s.writeAnswers := rfl
@[simp] theorem State.checked_wakeups (c : Config) (l : List Check) : (State.checked c s l).wakeups = s.wakeups := rfl
@[simp] theorem State.checked_readAnswers (c : Config) (l : List Check) : (State.checked c s l).readAnswers = s.readAnswers := rfl
@[simp] theorem State.checked_out (c : Config) (l : List Check) : (State.checked c s l).out = s.out ++ traceEvents c l := rfl
@[simp] theorem State.checked_resets (c : Config) (l : List Check) : (State.checked c s l).resets = s.resets := rfl

@[simp] theorem State.assemble_eco2 (c : Config) (x : Xact) : (State.assemble c s x).eco2 = s.eco2 := rfl
@[simp] theorem State.assemble_tvoc (c : Config) (x : Xact) : (State.assemble c s x).tvoc = s.tvoc := rfl
@[simp] theorem State.assemble_rawH2 (c : Config) (x : Xact) : (State.assemble c s x).rawH2 = s.rawH2 := rfl
@[simp] theorem State.assemble_rawEth (c : Config) (x : Xact) : (State.assemble c s x).rawEth = s.rawEth := rfl
@[simp] theorem State.assemble_ready (c : Config) (x : Xact) : (State.assemble c s x).ready = s.ready := rfl
@[simp] theorem State.assemble_cacc (c : Config) (x : Xact) : (State.assemble c s x).cacc = s.cacc := rfl
@[simp] theorem State.assemble_busy (c : Config) (x : Xact) : (State.assemble c s x).busy = s.busy := rfl
@[simp] theorem State.assemble_phase (c : Config) (x : Xact) : (State.assemble c s x).phase = .write := rfl
@[simp] theorem State.assemble_substep (c : Config) (x : Xact) : (State.assemble c s x).substep = s.substep := rfl
@[simp] theorem State.assemble_arg (c : Config) (x : Xact) : (State.assemble c s x).arg = s.arg := rfl
@[simp] theorem State.assemble_txbuf (c : Config) (x : Xact) : (State.assemble c s x).txbuf = cmdAsm c x.code x.payload := rfl
@[simp] theorem State.assemble_rxbuf (c : Config) (x : Xact) : (State.assemble c s x).rxbuf = s.rxbuf := rfl
@[simp] theorem State.assemble_acc (c : Config) (x : Xact) : (State.assemble c s x).acc = accAfterGroups c s.acc x.payload := rfl
@[simp] theorem State.assemble_bitcnt (c : Config) (x : Xact) : (State.assemble c s x).bitcnt = bitcntAfter x.payload.length s.bitcnt := rfl
@[simp] theorem State.assemble_job (c : Config) (x : Xact) : (State.assemble c s x).job = s.job := rfl
@[simp] theorem State.assemble_pending (c : Config) (x : Xact) : (State.assemble c s x).pending = s.pending := rfl
@[simp] theorem State.assemble_rst (c : Config) (x : Xact) : (State.assemble c s x).rst = s.rst := rfl
@[simp] theorem State.assemble_reqs (c : Config) (x : Xact) : (State.assemble c s x).reqs = s.reqs := rfl
@[simp] theorem State.assemble_writeAnswers (c : Config) (x : Xact) : (State.assemble c s x).writeAnswers = s.writeAnswers := rfl
@[simp] theorem State.assemble_wakeups (c : Config) (x : Xact) : (State.assemble c s x).wakeups = s.wakeups := rfl
@[simp] theorem State.assemble_readAnswers (c : Config) (x : Xact) : (State.assemble c s x).readAnswers = s.readAnswers := rfl
@[simp] theorem State.assemble_out (c : Config) (x : Xact) : (State.assemble c s x).out = s.out ++ [.write c.busAddr (cmdAsm c x.code x.payload)] := rfl
@[simp] theorem State.assemble_resets (c : Config) (x : Xact) : (State.assemble c s x).resets = s.resets := rfl

@[simp] theorem State.resetEvent_eco2 (c : Config) : (State.resetEvent c s).eco2 = (State.fresh c (s.resets + 1)).eco2 := rfl
@[simp] theorem State.resetEvent_tvoc (c : Config) : (State.resetEvent c s).tvoc = (State.fresh c (s.resets + 1)).tvoc := rfl
@[simp] theorem State.resetEvent_rawH2 (c : Config) : (State.resetEvent c s).rawH2 = (State.fresh c (s.resets + 1)).rawH2 := rfl
@[simp] theorem State.resetEvent_rawEth (c : Config) : (State.resetEvent c s).rawEth = (State.fresh c (s.resets + 1)).rawEth := rfl
@[simp] theorem State.resetEvent_ready (c : Config) : (State.resetEvent c s).ready = (State.fresh c (s.resets + 1)).ready := rfl
@[simp] theorem State.resetEvent_cacc (c : Config) : (State.resetEvent c s).cacc = (State.fresh c (s.resets + 1)).cacc := rfl
@[simp] theorem State.resetEvent_busy (c : Config) : (State.resetEvent c s).busy = (State.fresh c (s.resets + 1)).busy := rfl
@[simp] theorem State.resetEvent_phase (c : Config) : (State.resetEvent c s).phase = (State.fresh c (s.resets + 1)).phase := rfl
@[simp] theorem State.resetEvent_substep (c : Config) : (State.resetEvent c s).substep = (State.fresh c (s.resets + 1)).substep := rfl
@[simp] theorem State.resetEvent_arg (c : Config) : (State.resetEvent c s).arg = (State.fresh c (s.resets + 1)).arg := rfl
@[simp] theorem State.resetEvent_txbuf (c : Config) : (State.resetEvent c s).txbuf = (State.fresh c (s.resets + 1)).txbuf := rfl
@[simp] theorem State.resetEvent_rxbuf (c : Config) : (State.resetEvent c s).rxbuf = (State.fresh c (s.resets + 1)).rxbuf := rfl
@[simp] theorem State.resetEvent_acc (c : Config) : (State.resetEvent c s).acc = (State.fresh c (s.resets + 1)).acc := rfl
@[simp] theorem State.resetEvent_bitcnt (c : Config) : (State.resetEvent c s).bitcnt = (State.fresh c (s.resets + 1)).bitcnt := rfl
@[simp] theorem State.resetEvent_job (c : Config) : (State.resetEvent c s).job = (State.fresh c (s.resets + 1)).job := rfl
@[simp] theorem State.resetEvent_pending (c : Config) : (State.resetEvent c s).pending = (State.fresh c (s.resets + 1)).pending := rfl
@[simp] theorem State.resetEvent_rst (c : Config) : (State.resetEvent c s).rst = (State.fresh c (s.resets + 1)).rst := rfl
@[simp] theorem State.resetEvent_reqs (c : Config) : (State.resetEvent c s).reqs = s.reqs := rfl
@[simp] theorem State.resetEvent_writeAnswers (c : Config) : (State.resetEvent c s).writeAnswers = [] := rfl
@[simp] theorem State.resetEvent_wakeups (c : Config) : (State.resetEvent c s).wakeups = 0 := rfl
@[simp] theorem State.resetEvent_readAnswers (c : Config) : (State.resetEvent c s).readAnswers = [] := rfl
@[simp] theorem State.resetEvent_out (c : Config) : (State.resetEvent c s).out = s.out := rfl
@[simp] theorem State.resetEvent_resets (c : Config) : (State.resetEvent c s).resets = s.resets + 1 := rfl

end Updates

end Sys2Proof.Machine
end

