-- ==== Sys2Proof/Laws/Sequencer.lean ====
section
/-! SUPPORT. What one transition of the sequencer can do, said once (42_transaction.md R157), and how a run of
transitions is taken apart. -/

namespace Sys2Proof.Machine

variable {c : Config} {s s' : State}

/-- One transition is one of the rows of R157. -/
theorem advance_cases (h : advance c s = some s') :
    ∃ j, s.job = some j ∧
      ((s.phase = .assemble ∧ s' = s.assemble c (j.xact s.substep s.arg)) ∨
        (s.phase = .write ∧ s.awaitWrite (j.xact s.substep s.arg) = some s') ∨
        (s.phase = .settle ∧ s.awaitSleep c (j.xact s.substep s.arg) = some s') ∨
        (s.phase = .read ∧ s.awaitRead (j.xact s.substep s.arg) = some s') ∨
        (s.phase = .verify ∧ s' = s.verify c (j.xact s.substep s.arg)) ∨
        (s.phase = .respond ∧ ∃ r, s.pending = some r ∧ s' = s.finish c j r)) := by
  unfold advance at h
  split at h
  · cases h
  · next j hj =>
    refine ⟨j, hj, ?_⟩
    cases hp : s.phase <;> simp only [hp] at h
    · cases h
    · exact .inl ⟨rfl, by simpa using h.symm⟩
    · exact .inr (.inl ⟨rfl, h⟩)
    · exact .inr (.inr (.inl ⟨rfl, h⟩))
    · exact .inr (.inr (.inr (.inl ⟨rfl, h⟩)))
    · exact .inr (.inr (.inr (.inr (.inl ⟨rfl, by simpa using h.symm⟩))))
    · refine .inr (.inr (.inr (.inr (.inr ⟨rfl, ?_⟩))))
      cases hr : s.pending with
      | none => simp [hr] at h
      | some r => exact ⟨r, rfl, by simpa [hr] using h.symm⟩

/-- What a write answer does (R152). -/
theorem awaitWrite_cases {x : Xact} (h : s.awaitWrite x = some s') :
    ∃ ws, (s.writeAnswers = true :: ws ∧
        s' = { s with writeAnswers := ws, phase := .settle, out := s.out ++ [.sleep x.settle] }) ∨
      (s.writeAnswers = false :: ws ∧ s' = { s with writeAnswers := ws }.raise .transportWrite) := by
  unfold State.awaitWrite at h
  split at h
  · cases h
  · next ws hw => exact ⟨ws, .inl ⟨hw, by simpa using h.symm⟩⟩
  · next ws hw => exact ⟨ws, .inr ⟨hw, by simpa using h.symm⟩⟩

/-- What the end of the sleep does (R153, R154). -/
theorem awaitSleep_cases {x : Xact} (h : s.awaitSleep c x = some s') :
    ∃ n, s.wakeups = n + 1 ∧
      ((x.words = 0 ∧ s' = { s with wakeups := n }.succeed []) ∨
        (x.words ≠ 0 ∧ s' =
          { s with wakeups := n, phase := .read, out := s.out ++ [.read c.busAddr (3 * x.words)] })) := by
  unfold State.awaitSleep at h
  split at h
  · cases h
  · next n hn =>
    refine ⟨n, hn, ?_⟩
    split at h
    · next hx => exact .inl ⟨hx, by simpa using h.symm⟩
    · next hx => exact .inr ⟨hx, by simpa using h.symm⟩

/-- What a read answer does (R155, R53). -/
theorem awaitRead_cases {x : Xact} (h : s.awaitRead x = some s') :
    ∃ a rs, s.readAnswers = a :: rs ∧
      ((∃ bytes, a = some bytes ∧ bytes.length = 3 * x.words ∧
          s' = { s with readAnswers := rs, rxbuf := bytes, phase := .verify }) ∨
        ((∀ bytes, a = some bytes → bytes.length ≠ 3 * x.words) ∧
          s' = { s with readAnswers := rs }.raise .transportRead)) := by
  unfold State.awaitRead at h
  split at h
  · cases h
  · next rs hr => exact ⟨none, rs, hr, .inr ⟨by simp, by simpa using h.symm⟩⟩
  · next bytes rs hr =>
    refine ⟨some bytes, rs, hr, ?_⟩
    split at h
    · next hl => exact .inl ⟨bytes, rfl, hl, by simpa using h.symm⟩
    · next hl => exact .inr ⟨by simpa using hl, by simpa using h.symm⟩

/-- What the verification does (R156). -/
theorem verify_cases (c : Config) (s : State) (x : Xact) :
    (∃ words, frameVal c x.words s.rxbuf = .ok words ∧
        s.verify c x = (s.checked c (frameChecks c x.words 0 s.rxbuf)).succeed words) ∨
      (∃ i, frameVal c x.words s.rxbuf = .corrupt i ∧
        s.verify c x = (s.checked c (frameChecks c x.words 0 s.rxbuf)).raise .checksumMismatch) := by
  unfold State.verify
  cases h : frameVal c x.words s.rxbuf with
  | ok words => exact .inl ⟨words, rfl, rfl⟩
  | corrupt i => exact .inr ⟨i, rfl, rfl⟩

@[simp] theorem run_zero (c : Config) (s : State) : run c 0 s = s := rfl

theorem run_of_some {n : Nat} (h : advance c s = some s') : run c (n + 1) s = run c n s' := by
  simp [run, h]

theorem run_of_none {n : Nat} (h : advance c s = none) : run c n s = s := by
  cases n with
  | zero => rfl
  | succ n => simp [run, h]

/-- A property that every transition keeps holds after a run. -/
theorem run_preserves {P : State → Prop} (hstep : ∀ s s', P s → advance c s = some s' → P s')
    (n : Nat) (s : State) (h : P s) : P (run c n s) := by
  induction n generalizing s with
  | zero => exact h
  | succ n ih =>
    cases ha : advance c s with
    | none => simpa [run, ha] using h
    | some s' => simpa [run, ha] using ih s' (hstep s s' h ha)

theorem advance_idle (h : s.phase = .idle) : advance c s = none := by
  unfold advance
  split <;> simp_all

/-- An operation that has ended stays as it is. -/
theorem run_idle {n : Nat} (h : s.phase = .idle) : run c n s = s :=
  run_of_none (advance_idle h)

theorem advance_assemble {j : Job} (hj : s.job = some j) (hp : s.phase = .assemble) :
    advance c s = some (s.assemble c (j.xact s.substep s.arg)) := by
  simp [advance, hj, hp]

theorem advance_write {j : Job} (hj : s.job = some j) (hp : s.phase = .write) :
    advance c s = s.awaitWrite (j.xact s.substep s.arg) := by
  simp [advance, hj, hp]

theorem advance_settle {j : Job} (hj : s.job = some j) (hp : s.phase = .settle) :
    advance c s = s.awaitSleep c (j.xact s.substep s.arg) := by
  simp [advance, hj, hp]

theorem advance_read {j : Job} (hj : s.job = some j) (hp : s.phase = .read) :
    advance c s = s.awaitRead (j.xact s.substep s.arg) := by
  simp [advance, hj, hp]

theorem advance_verify {j : Job} (hj : s.job = some j) (hp : s.phase = .verify) :
    advance c s = some (s.verify c (j.xact s.substep s.arg)) := by
  simp [advance, hj, hp]

theorem advance_respond {j : Job} {r : XactResult} (hj : s.job = some j) (hp : s.phase = .respond)
    (hr : s.pending = some r) : advance c s = some (s.finish c j r) := by
  simp [advance, hj, hp, hr]

/-- R152: an accepted write. -/
theorem advance_write_ok {j : Job} {ws : List Bool} (hj : s.job = some j) (hp : s.phase = .write)
    (hw : s.writeAnswers = true :: ws) :
    advance c s = some { s with
      writeAnswers := ws, phase := .settle
      out := s.out ++ [.sleep (j.xact s.substep s.arg).settle] } := by
  simp [advance_write hj hp, State.awaitWrite, hw]

/-- R152, R203: a failed write. -/
theorem advance_write_fail {j : Job} {ws : List Bool} (hj : s.job = some j) (hp : s.phase = .write)
    (hw : s.writeAnswers = false :: ws) :
    advance c s = some ({ s with writeAnswers := ws }.raise .transportWrite) := by
  simp [advance_write hj hp, State.awaitWrite, hw]

/-- R154: the end of the sleep of a command without reply words. -/
theorem advance_settle_done {j : Job} {n : Nat} (hj : s.job = some j) (hp : s.phase = .settle)
    (hn : s.wakeups = n + 1) (h0 : (j.xact s.substep s.arg).words = 0) :
    advance c s = some ({ s with wakeups := n }.succeed []) := by
  simp [advance_settle hj hp, State.awaitSleep, hn, h0]

/-- R155: the end of the sleep of a command with reply words. -/
theorem advance_settle_read {j : Job} {n : Nat} (hj : s.job = some j) (hp : s.phase = .settle)
    (hn : s.wakeups = n + 1) (h0 : 1 ≤ (j.xact s.substep s.arg).words) :
    advance c s = some { s with
      wakeups := n, phase := .read
      out := s.out ++ [.read c.busAddr (3 * (j.xact s.substep s.arg).words)] } := by
  simp [advance_settle hj hp, State.awaitSleep, hn, Nat.ne_of_gt h0]

/-- R155, R204, R53: a failed read, or one with another number of bytes. -/
theorem advance_read_fail {j : Job} {a : Option (List Byte)} {rs : List (Option (List Byte))}
    (hj : s.job = some j) (hp : s.phase = .read) (hr : s.readAnswers = a :: rs)
    (ha : ∀ bytes, a = some bytes → bytes.length ≠ 3 * (j.xact s.substep s.arg).words) :
    advance c s = some ({ s with readAnswers := rs }.raise .transportRead) := by
  cases a with
  | none => simp [advance_read hj hp, State.awaitRead, hr]
  | some bytes => simp [advance_read hj hp, State.awaitRead, hr, ha bytes rfl]

/-- R155: a read with the number of bytes asked for. -/
theorem advance_read_ok {j : Job} {bytes : List Byte} {rs : List (Option (List Byte))}
    (hj : s.job = some j) (hp : s.phase = .read) (hr : s.readAnswers = some bytes :: rs)
    (hl : bytes.length = 3 * (j.xact s.substep s.arg).words) :
    advance c s = some { s with readAnswers := rs, rxbuf := bytes, phase := .verify } := by
  simp [advance_read hj hp, State.awaitRead, hr, hl]

/-- R206, R178: a failed transaction ends its operation. -/
theorem finish_fail (c : Config) (s : State) (j : Job) (k : Cause) :
    s.finish c j (.fail k) = if j = .beginSeq then s.failBegin k else s.failWith k := by
  cases j <;> rfl

/-- R157, R206: a run from `RESPOND` with a failure ends the operation. -/
theorem run_respond_fail {n : Nat} {j : Job} {k : Cause} (hj : s.job = some j)
    (hp : s.phase = .respond) (hr : s.pending = some (.fail k)) :
    run c (n + 1) s = if j = .beginSeq then s.failBegin k else s.failWith k := by
  rw [run_of_some (advance_respond hj hp hr), finish_fail]
  apply run_idle
  split <;> rfl

/-- A command whose write and sleep are answered and which has reply words is in `READ` (R151 to R155). -/
theorem runJob_to_read {s : State} {j : Job} {x : Xact} {ws : List Bool} {n : Nat}
    (hx : j.xact s.substep s.arg = x) (hw : s.writeAnswers = true :: ws) (hn : s.wakeups = n + 1)
    (h0 : 1 ≤ x.words) :
    s.runJob c j = run c 15 { s with
      busy := true, phase := .read, job := some j, pending := none
      txbuf := cmdAsm c x.code x.payload, acc := accAfterGroups c s.acc x.payload
      bitcnt := bitcntAfter x.payload.length s.bitcnt, writeAnswers := ws, wakeups := n
      out := s.out ++ [.write c.busAddr (cmdAsm c x.code x.payload), .sleep x.settle,
        .read c.busAddr (3 * x.words)] } := by
  subst hx
  unfold State.runJob settleDown runFuel
  rw [run_of_some (advance_assemble (j := j) rfl rfl),
    run_of_some (advance_write_ok (j := j) (ws := ws) rfl rfl (by simpa using hw)),
    run_of_some (advance_settle_read (j := j) (n := n) rfl rfl (by simpa using hn) (by simpa using h0))]
  simp [State.start, State.assemble]

end Sys2Proof.Machine
end

