-- ==== Sys2Proof/Laws/Ops.lean ====
section
/-! SUPPORT. The spec lemmas of the shared operations that admit a request (R32, R91, R213, R236), fetch one and
reset the engine (R230, R231). -/

namespace Sys2Proof.Machine

variable {c : Config} {s : State} {i : Instr} {r : Request}
  {o : Host.Outcome State Fault Refusal}

/-- R32: accepted when `BUSY = 0`. -/
@[simp] theorem whenIdle_idle (h : s.busy = false) : whenIdle i s o = o := by
  simp [whenIdle, h]

/-- R236: held when `BUSY = 1`. -/
@[simp] theorem whenIdle_busy (h : s.busy = true) : whenIdle i s o = .next (s.hold i) := by
  simp [whenIdle, h]

/-- R213: the policy of the engine is `execute`. -/
@[simp] theorem whenReady_sg33 : whenReady Config.sg33 s o = o := by
  simp [whenReady, Config.sg33]

theorem hold_of_encode (h : encode i = some r) : s.hold i = { s with reqs := r :: s.reqs } := by
  simp [State.hold, h]

@[simp] theorem fetch_of_cons {rs : List Request} (h : s.reqs = r :: rs) :
    s.fetch = some (r, { s with reqs := rs }) := by
  simp [State.fetch, h]

@[simp] theorem fetch_of_nil (h : s.reqs = []) : s.fetch = none := by
  simp [State.fetch, h]

/-- R115: the default constants give the default golden value. -/
theorem sg33_wellFormed : Config.sg33.wellFormed = true := by decide +kernel

/-- R115: a configuration that meets the golden constraint runs. -/
theorem whenGolden_of_wellFormed (h : c.wellFormed = true) : whenGolden c o = o := if_pos h

/-- R115: a configuration that breaks the golden constraint is refused. -/
theorem whenGolden_of_not_wellFormed (h : c.wellFormed = false) :
    whenGolden c o = .refused .configuration := by
  simp [whenGolden, h]

/-- What goes on with any configuration goes on with one that is not refused (R115). -/
theorem whenGolden_eq_next {t : State} (h : whenGolden c o = .next t) :
    c.wellFormed = true ∧ o = .next t := by
  unfold whenGolden at h
  split at h
  · next hc => exact ⟨hc, h⟩
  · cases h

theorem execIn_of_wellFormed (h : c.wellFormed = true) : execIn c i s = operationIn c i s :=
  whenGolden_of_wellFormed h

theorem stepIn_of_wellFormed (h : c.wellFormed = true) :
    stepIn c s = stepWith c (operationIn c) s :=
  whenGolden_of_wellFormed h

/-- `exec` is the operations of the engine at the default parameters (R8). -/
theorem operationIn_sg33 (i : Instr) (s : State) : operationIn Config.sg33 i s = exec i s := by
  cases i <;> rfl

theorem execIn_sg33 (i : Instr) (s : State) : execIn Config.sg33 i s = exec i s := by
  rw [execIn_of_wellFormed sg33_wellFormed, operationIn_sg33]

/-- `step` is the step of the engine at the default parameters (R8). -/
theorem stepIn_sg33 (s : State) : stepIn Config.sg33 s = step s := by
  rw [stepIn_of_wellFormed sg33_wellFormed, step,
    show operationIn Config.sg33 = exec from funext fun i => funext (operationIn_sg33 i)]

/-- R231: the reset input wins. -/
theorem step_of_rst {k : Nat} (h : s.rst = some k) :
    step s = .next ((s.beforeReset Config.sg33 k).resetEvent Config.sg33) := by
  simp [step, stepWith, h]

/-- R231: a reset that lands at once. -/
@[simp] theorem beforeReset_zero : s.beforeReset c 0 = s := by
  unfold State.beforeReset
  split <;> rfl

/-- R236: an operation in progress goes on. -/
theorem step_of_busy (h0 : s.rst = none) (h1 : s.sequencerOk = true) (h2 : s.busy = true) :
    step s = .next (settleDown Config.sg33 s) := by
  simp [step, stepWith, h0, h1, h2]

/-- R32: an idle engine accepts the next request. -/
theorem step_of_request {rs : List Request} (h0 : s.rst = none) (h1 : s.sequencerOk = true)
    (h2 : s.busy = false) (h3 : s.reqs = r :: rs) :
    step s = exec (decodeRequest r) { s with reqs := rs } := by
  unfold step stepWith
  rw [fetch_of_cons h3]
  simp [h0, h1, h2]

theorem sequencerOk_iff :
    s.sequencerOk = true ↔
      (s.busy = true ↔ s.phase ≠ .idle) ∧ (s.job.isSome = s.busy) ∧
        (s.pending.isSome = true ↔ s.phase = .respond) := by
  unfold State.sequencerOk
  cases s.busy <;> cases s.phase <;> cases s.job.isSome <;> cases s.pending.isSome <;> decide

/-- An idle engine starts the command's transaction and runs it (R171 to R175, R178, R213). -/
theorem exec_ident_idle (h : s.busy = false) : exec .ident s = .next (s.runJob Config.sg33 .ident) :=
  whenIdle_idle h

theorem exec_feat_idle (h : s.busy = false) : exec .feat s = .next (s.runJob Config.sg33 .feat) :=
  whenIdle_idle h

theorem exec_init_idle (h : s.busy = false) : exec .init s = .next (s.runJob Config.sg33 .init) :=
  whenIdle_idle h

theorem exec_meas_idle (h : s.busy = false) : exec .meas s = .next (s.runJob Config.sg33 .meas) := by
  simp [exec, execMeas, measIn, h]

theorem exec_measRaw_idle (h : s.busy = false) :
    exec .measRaw s = .next (s.runJob Config.sg33 .measRaw) := by
  simp [exec, execMeasRaw, measRawIn, h]

theorem exec_beginSeq_idle (h : s.busy = false) :
    exec .beginSeq s = .next ({ s with substep := .identify }.runJob Config.sg33 .beginSeq) :=
  whenIdle_idle h

/-- R177: in range, the operand is latched and the transaction runs. -/
theorem exec_setHum_idle {arg : Nat} (h : s.busy = false)
    (hr : humInRange (argBits Config.sg33 arg) = true) :
    exec (.setHum arg) s =
      .next ((s.latchArg (argBits Config.sg33 arg)).runJob Config.sg33 .setHum) := by
  simp [exec, execSetHum, setHumIn, h, hr]

/-- R150, R160: within the bounds. -/
theorem exec_execute_idle {x : Xact} (h : s.busy = false) (hx : x.wellFormed = true) :
    exec (.execute x) s = .next (s.runJob Config.sg33 (.execute x)) := by
  simp [exec, execExecute, executeIn, h, hx]

/-- R134: on the operands it gives `FRAME.VAL` the result is its function's. -/
theorem frameResult_of_bounds {w : Nat} {rx : List Byte} (h1 : 1 ≤ w) (h3 : w ≤ 3)
    (hl : rx.length = 3 * w) : frameResult c w rx = frameVal c w rx := by
  simp [frameResult, Config.maxWords, h1, h3, hl]

/-- Without `TRACE_EN` the comparisons leave only the checksum engine's registers (R219). -/
theorem checked_sg33 (l : List Check) :
    s.checked Config.sg33 l =
      { s with acc := accAfterChecks s.acc l, bitcnt := bitcntAfter l.length s.bitcnt } := by
  simp [State.checked, traceEvents_off (c := Config.sg33) rfl]

/-- Every host request names an operation with a select code (R90). -/
theorem decodeRequest_selectable (r : Request) : (decodeRequest r).hostSelectable = true := by
  unfold decodeRequest
  split <;> rfl

/-- What a state has that an operation starts from, in so far as the transaction can show it. -/
structure SameStart (s u : State) : Prop where
  results : SameResults s u
  ready : u.ready = s.ready
  cacc : u.cacc = s.cacc
  acc : u.acc = s.acc
  writeAnswers : u.writeAnswers = s.writeAnswers
  wakeups : u.wakeups = s.wakeups
  readAnswers : u.readAnswers = s.readAnswers
  out : u.out = s.out

theorem SameStart.refl (s : State) : SameStart s s :=
  ⟨⟨rfl, rfl, rfl, rfl⟩, rfl, rfl, rfl, rfl, rfl, rfl, rfl⟩

/-- An operation that makes a transaction starts it and runs it, in an idle engine (R170, R178, R150). -/
theorem exec_of_firstXact {x : Xact} (h : firstXact Config.sg33 i = some x) (hb : s.busy = false) :
    ∃ (j : Job) (u : State), exec i s = .next (u.runJob Config.sg33 j) ∧
      j.xact u.substep u.arg = x ∧ SameStart s u ∧ (i = .beginSeq ↔ j = .beginSeq) ∧
      (j = .beginSeq → u.substep = .identify) := by
  cases i <;> simp only [firstXact] at h <;> try contradiction
  case setHum a =>
    split at h
    · next ha =>
      cases h
      exact ⟨_, s.latchArg _, exec_setHum_idle hb ha, rfl,
        ⟨⟨rfl, rfl, rfl, rfl⟩, rfl, rfl, rfl, rfl, rfl, rfl, rfl⟩, by simp, by simp⟩
    · cases h
  case execute y =>
    split at h
    · next hy => cases h; exact ⟨_, s, exec_execute_idle hb hy, rfl, .refl s, by simp, by simp⟩
    · cases h
  all_goals cases h
  · exact ⟨_, s, exec_ident_idle hb, rfl, .refl s, by simp, by simp⟩
  · exact ⟨_, s, exec_feat_idle hb, rfl, .refl s, by simp, by simp⟩
  · exact ⟨_, s, exec_init_idle hb, rfl, .refl s, by simp, by simp⟩
  · exact ⟨_, s, exec_meas_idle hb, rfl, .refl s, by simp, by simp⟩
  · exact ⟨_, s, exec_measRaw_idle hb, rfl, .refl s, by simp, by simp⟩
  · exact ⟨_, { s with substep := .identify }, exec_beginSeq_idle hb, rfl,
      ⟨⟨rfl, rfl, rfl, rfl⟩, rfl, rfl, rfl, rfl, rfl, rfl, rfl⟩, by simp, by simp⟩

/-- The invariant says nothing of the input ports (R35). -/
theorem State.Inv.with_inputs (h : s.Inv c) (k : Option Nat) (q : List Request) (ws : List Bool)
    (n : Nat) (rs : List (Option (List Byte))) :
    State.Inv c { s with
      rst := k, reqs := q, writeAnswers := ws, wakeups := n, readAnswers := rs } :=
  ⟨h.sequencer, h.waiting, h.txBound, h.rxBound, h.idleEmpty, h.frame, h.readWords, h.bounds,
    h.argWidth, h.inRange⟩

/-- R7: an input comes only where its agent is enabled. -/
theorem input_eq_some_iff {i : Input} {t : State} :
    s.input i = some t ↔ i.enabled s = true ∧ t = s.receive i := by
  unfold State.input
  cases i.enabled s <;> simp [eq_comm]

/-- R7, R236: the host is enabled exactly where it can present a request. -/
theorem enabled_request (r : Request) : (Input.request r).enabled s = s.enabled c .host := rfl

/-- R7: the transport is enabled exactly where a write or a read is outstanding. -/
theorem enabled_transport :
    s.enabled c .transport = (s.writeOutstanding || s.readOutstanding) := rfl

end Sys2Proof.Machine
end

