-- ==== Sys2Proof/Laws/PerInstr.lean ====
section
/-! SUPPORT. The statements made of every operation, one lemma per constructor. -/

namespace Sys2Proof.Laws

open Sys2Proof.Machine

/-- R92: the length of a command frame is decided by the command: 5 bytes for `SETHUM`, 2 bytes for the others; and the
code is one of the six of R89. -/
def FrameLength.Statement (i : Instr) : Prop :=
  ∀ (c : Config) (f : List Byte), encodeFrame c i = some f →
    (f.length = 5 ∧ f.take 2 = [0x20#8, 0x61#8]) ∨
      (f.length = 2 ∧ f ∈ [[0x36#8, 0x82#8], [0x20#8, 0x2F#8], [0x20#8, 0x03#8], [0x20#8, 0x08#8],
        [0x20#8, 0x50#8]])

/-- An operation that writes no frame of its own. -/
theorem FrameLength.of_none {i : Instr} (h : ∀ c, encodeFrame c i = none) :
    FrameLength.Statement i := by
  intro c f hf
  rw [h c] at hf
  cases hf

/-- A command without payload. -/
theorem FrameLength.of_code {i : Instr} {b0 b1 : Byte}
    (h : ∀ c, encodeFrame c i = some [b0, b1])
    (hm : [b0, b1] ∈ [[0x36#8, 0x82#8], [0x20#8, 0x2F#8], [0x20#8, 0x03#8], [0x20#8, 0x08#8],
      [0x20#8, 0x50#8]]) : FrameLength.Statement i := by
  intro c f hf
  rw [h c] at hf
  cases hf
  exact .inr ⟨rfl, hm⟩

theorem FrameLength.ident : FrameLength.Statement .ident :=
  FrameLength.of_code (fun _ => rfl) (by decide)

theorem FrameLength.feat : FrameLength.Statement .feat :=
  FrameLength.of_code (fun _ => rfl) (by decide)

theorem FrameLength.init : FrameLength.Statement .init :=
  FrameLength.of_code (fun _ => rfl) (by decide)

theorem FrameLength.meas : FrameLength.Statement .meas :=
  FrameLength.of_code (fun _ => rfl) (by decide)

theorem FrameLength.measRaw : FrameLength.Statement .measRaw :=
  FrameLength.of_code (fun _ => rfl) (by decide)

theorem FrameLength.setHum (a : Nat) : FrameLength.Statement (.setHum a) := by
  intro c f hf
  simp only [encodeFrame] at hf
  split at hf
  · cases hf
    exact .inl ⟨rfl, rfl⟩
  · cases hf

theorem FrameLength.beginSeq : FrameLength.Statement .beginSeq :=
  FrameLength.of_none fun _ => rfl

theorem FrameLength.crcClr : FrameLength.Statement .crcClr :=
  FrameLength.of_none fun _ => rfl

theorem FrameLength.crcUpd (a : Nat) : FrameLength.Statement (.crcUpd a) :=
  FrameLength.of_none fun _ => rfl

theorem FrameLength.crcRd : FrameLength.Statement .crcRd :=
  FrameLength.of_none fun _ => rfl

theorem FrameLength.reserved7 : FrameLength.Statement .reserved7 :=
  FrameLength.of_none fun _ => rfl

theorem FrameLength.reservedB : FrameLength.Statement .reservedB :=
  FrameLength.of_none fun _ => rfl

theorem FrameLength.reservedC : FrameLength.Statement .reservedC :=
  FrameLength.of_none fun _ => rfl

theorem FrameLength.reservedD : FrameLength.Statement .reservedD :=
  FrameLength.of_none fun _ => rfl

theorem FrameLength.reservedE : FrameLength.Statement .reservedE :=
  FrameLength.of_none fun _ => rfl

theorem FrameLength.reservedF : FrameLength.Statement .reservedF :=
  FrameLength.of_none fun _ => rfl

theorem FrameLength.crcBit (a : Byte) : FrameLength.Statement (.crcBit a) :=
  FrameLength.of_none fun _ => rfl

theorem FrameLength.crcByte (a b : Byte) : FrameLength.Statement (.crcByte a b) :=
  FrameLength.of_none fun _ => rfl

theorem FrameLength.crc8 (d : List Byte) : FrameLength.Statement (.crc8 d) :=
  FrameLength.of_none fun _ => rfl

theorem FrameLength.groupEnc (p : Word) : FrameLength.Statement (.groupEnc p) :=
  FrameLength.of_none fun _ => rfl

theorem FrameLength.cmdAsm (k : Word) (ps : List Word) : FrameLength.Statement (.cmdAsm k ps) :=
  FrameLength.of_none fun _ => rfl

theorem FrameLength.wordChk (b0 b1 k : Byte) : FrameLength.Statement (.wordChk b0 b1 k) :=
  FrameLength.of_none fun _ => rfl

theorem FrameLength.wordDec (b0 b1 : Byte) : FrameLength.Statement (.wordDec b0 b1) :=
  FrameLength.of_none fun _ => rfl

theorem FrameLength.frameVal (w : Nat) (rx : List Byte) : FrameLength.Statement (.frameVal w rx) :=
  FrameLength.of_none fun _ => rfl

theorem FrameLength.execute (x : Xact) : FrameLength.Statement (.execute x) :=
  FrameLength.of_none fun _ => rfl

theorem FrameLength.humScale (v : Nat) : FrameLength.Statement (.humScale v) :=
  FrameLength.of_none fun _ => rfl

end Sys2Proof.Laws
end

