-- ==== Sys2Proof/Tests/Slice0.lean ====
section
/-! SUPPORT. The model's own tests. Every expected value is a row of spec/95_test_vectors.md (named V<n>, or P<n> for a
program of its part 3) or a table of the rule named; then one witness for each statement with hypotheses. -/

namespace Sys2Proof.Tests

open Sys2Proof.Machine

/-- An idle engine with a value in every register, which the tests start from. -/
def idle : State where
  eco2 := 0x0190#16
  tvoc := 0x0005#16
  rawH2 := 0x1111#16
  rawEth := 0x2222#16
  ready := true
  cacc := 0x0C#8
  busy := false
  phase := .idle
  substep := .identify
  arg := 7
  txbuf := []
  rxbuf := []
  acc := 0x55#8
  bitcnt := 3#3
  job := none
  pending := none
  rst := none
  reqs := []
  writeAnswers := []
  wakeups := 0
  readAnswers := []
  out := []
  resets := 0

/-- The idle engine with answers to come: writes, sleeps, reads. -/
def answered (ws : List Bool) (n : Nat) (rs : List (Option (List Byte))) : State :=
  { idle with writeAnswers := ws, wakeups := n, readAnswers := rs }

/-- A state with one request presented. -/
def requested (op : Op) (arg : Nat) (s : State) : State := { s with reqs := [⟨op, arg⟩] }

/-- `MEAS` waiting for its read (P6 with `MEAS`). -/
def waiting : State :=
  { idle with busy := true, phase := .read, job := some .meas, txbuf := [0x20#8, 0x08#8] }

/-- The state of a next outcome. -/
def after : Host.Outcome State Fault Refusal → Option State
  | .next s => some s
  | .fault _ => none
  | .refused _ => none

/-- The reason of a refusal. -/
def refusal : Host.Outcome State Fault Refusal → Option Refusal
  | .next _ => none
  | .fault _ => none
  | .refused r => some r

/-- The events after an operation from a state without any. -/
def events (o : Host.Outcome State Fault Refusal) : Option (List Event) := (after o).map State.out

/-- The four result registers after an operation, by their index (R21, R34). -/
def results (o : Host.Outcome State Fault Refusal) : Option (List Word) :=
  (after o).map fun s => [s.x 0, s.x 1, s.x 2, s.x 3]

/-- The reply of V100. -/
def goodMeas : List Byte := [0x1A#8, 0x2B#8, 0x6D#8, 0x3C#8, 0x4D#8, 0xF6#8]

/-- The reply of V108. -/
def goodIdent : List Byte := [0x00#8, 0x00#8, 0x81#8, 0x01#8, 0x90#8, 0x4C#8, 0x0B#8, 0x6F#8, 0x0E#8]

/-! ### Well-formedness: one ill-formed term for each check -/

theorem test_operand_wider_than_argWidth_ill_formed :
    (Instr.setHum (2 ^ 32)).wellFormed = false ∧ (Instr.crcUpd (2 ^ 32)).wellFormed = false := by decide

theorem test_cmdAsm_two_groups_ill_formed :
    (Instr.cmdAsm 0x2061#16 [0x1234#16, 0x5678#16]).wellFormed = false := by decide

theorem test_frameVal_no_words_ill_formed : (Instr.frameVal 0 []).wellFormed = false := by decide

theorem test_frameVal_four_words_ill_formed :
    (Instr.frameVal 4 (List.replicate 12 0#8)).wellFormed = false := by decide

theorem test_frameVal_short_frame_ill_formed :
    (Instr.frameVal 1 [0#8, 0#8]).wellFormed = false := by decide

theorem test_execute_two_groups_ill_formed :
    (Instr.execute ⟨0x2061#16, [1#16, 2#16], 10, 0⟩).wellFormed = false := by decide

theorem test_execute_four_words_ill_formed :
    (Instr.execute ⟨0x3682#16, [], 10, 4⟩).wellFormed = false := by decide

theorem test_humScale_above_range_ill_formed : (Instr.humScale 256001).wellFormed = false := by
  decide

/-- R115, V37: these constants do not give the default golden value. -/
theorem test_config_without_golden_ill_formed :
    ({ Config.sg33 with poly := 0x07#8, init := 0x00#8 } : Config).wellFormed = false := by
  decide +kernel

/-- E2, R115. -/
theorem test_config_well_formed : Config.sg33.wellFormed = true := by decide +kernel

/-- R115: such a configuration is refused, and with its own golden value (V37 to V39b) it runs. -/
theorem test_config_without_golden_refused :
    refusal (execIn { Config.sg33 with poly := 0x07#8, init := 0x00#8 } .crcClr idle) =
        some .configuration ∧
      refusal (stepIn { Config.sg33 with poly := 0x07#8, init := 0x00#8 } idle) = some .configuration ∧
      (after (execIn { Config.sg33 with
        poly := 0x07#8, init := 0x00#8
        goldenBeef := crc8 { Config.sg33 with poly := 0x07#8, init := 0x00#8 } [0xBE#8, 0xEF#8] }
        .crcClr idle)).map State.cacc = some 0x00#8 := by decide +kernel

/-! ### Decoding: the words of the tables of R89, R90 and R91 -/

theorem test_decode_wire_ident : decodeTableWord 16 0b0011011010000010 = some .ident := by decide
theorem test_decode_wire_feat : decodeTableWord 16 0b0010000000101111 = some .feat := by decide
theorem test_decode_wire_init : decodeTableWord 16 0b0010000000000011 = some .init := by decide
theorem test_decode_wire_meas : decodeTableWord 16 0b0010000000001000 = some .meas := by decide
theorem test_decode_wire_measRaw : decodeTableWord 16 0b0010000001010000 = some .measRaw := by decide

/-- V55 writes 20 61 0B 91 93; 11567 is the least operand that scales to 0x0B91 (assumption 18). -/
theorem test_decode_wire_setHum :
    decodeTableWord 40 0x20610B9193 = some (.setHum 11567) := by decide +kernel

/-- The scaled value read from the frame of V55 is that of V55's operand. -/
theorem test_decode_wire_setHum_same_scale : humScale 11567 = humScale 11570 := by
  decide +kernel

theorem test_decode_host_codes :
    (List.range 16).map (decodeTableWord 8) = [some .ident, some .feat, some .init, some .meas,
      some .measRaw, some (.setHum 0), some .beginSeq, some .reserved7, some .crcClr,
      some (.crcUpd 0), some .crcRd, some .reservedB, some .reservedC, some .reservedD,
      some .reservedE, some .reservedF] := by decide

theorem test_decode_operand_kept :
    decodeRequest ⟨0x5#4, 0x00002D32⟩ = .setHum 11570 ∧
      decodeRequest ⟨0x9#4, 0x000000BE⟩ = .crcUpd 0xBE := by decide

theorem test_decode_rejects_code_byte_order :
    decodeFrame Config.sg33 [0x82#8, 0x36#8] = .error .unknownCode := by decide

theorem test_decode_rejects_bad_checksum :
    decodeFrame Config.sg33 [0x20#8, 0x61#8, 0x0B#8, 0x91#8, 0x92#8] = .error .badChecksum := by
  decide +kernel

theorem test_decode_rejects_lengths :
    decodeFrame Config.sg33 [0x20#8] = .error .tooShort ∧
      decodeFrame Config.sg33 [0x20#8, 0x61#8] = .error .badLength ∧
      decodeFrame Config.sg33 [0x20#8, 0x08#8, 0x00#8] = .error .badLength := by decide

theorem test_table_word_too_wide_rejected :
    decodeTableWord 8 0x10 = none ∧ decodeTableWord 16 0x13682 = none := by decide

/-- The word of a row placed at the host channel is what the next step runs (R91). -/
theorem test_fetch_word_runs : events (step (idle.withFetchWord 8 0x7)) =
    some [.response ⟨false, .refused, []⟩] := by decide

/-! ### The checksum engine -/

/-- V4, V5, V7, V8. -/
theorem test_crcBit : crcBit 0x31#8 0x80#8 = 0x31#8 ∧ crcBit 0x31#8 0xFF#8 = 0xCF#8 ∧
    crcBit 0x31#8 0xC0#8 = 0xB1#8 ∧ crcBit 0x07#8 0x80#8 = 0x07#8 := by decide

/-- V6, and `BITCNT` counts. -/
theorem test_exec_crcBit : (after (exec (.crcBit 0x41#8) idle)).map (fun t => (t.acc, t.bitcnt)) =
    some (0x82#8, 4#3) := by decide

/-- V10, V15, V16. -/
theorem test_crcByte : crcByte 0x31#8 0xFF#8 0xBE#8 = 0x0C#8 ∧
    crcByte 0x31#8 0x00#8 0x01#8 = 0x31#8 ∧ crcByte 0x31#8 0x00#8 0x80#8 = 0x7A#8 := by
  decide +kernel

/-- V11. -/
theorem test_exec_crcByte : events (exec (.crcByte 0x0C#8 0xEF#8) idle) =
    some [.result (.byte 0x92#8)] := by decide +kernel

/-- V30, V31, V39b: order, and other constants. -/
theorem test_crc8 : crc8 Config.sg33 [0x00#8, 0x01#8] = 0xB0#8 ∧
    crc8 Config.sg33 [0x01#8, 0x00#8] = 0x75#8 ∧
    crc8 { Config.sg33 with poly := 0x1D#8 } [0x12#8, 0x34#8] = 0x53#8 := by decide +kernel

/-- V21. -/
theorem test_exec_crc8 : events (exec (.crc8 [0xBE#8, 0xEF#8]) idle) =
    some [.result (.byte 0x92#8)] := by decide +kernel

/-- V19: the first request. -/
theorem test_crcClr : (after (exec .crcClr idle)).map State.cacc = some 0xFF#8 := by decide

/-- V19c: only arg[7:0] is used. -/
theorem test_crcUpd : (after (exec (.crcUpd 0x1BE) { idle with cacc := 0xFF#8 })).map State.cacc =
    some 0x0C#8 := by decide +kernel

/-- V19c: the read. -/
theorem test_crcRd : events (exec .crcRd idle) = some [.response ⟨true, .none, [0x000C#16]⟩] := by
  decide

/-! ### The framing operations -/

/-- V63. -/
theorem test_groupEnc : events (exec (.groupEnc 0x0B91#16) idle) =
    some [.result (.bytes [0x0B#8, 0x91#8, 0x93#8])] := by decide +kernel

/-- V70. -/
theorem test_cmdAsm : (after (exec (.cmdAsm 0x2061#16 [0x0B91#16]) idle)).map State.txbuf =
    some [0x20#8, 0x61#8, 0x0B#8, 0x91#8, 0x93#8] := by decide +kernel

/-- V73: the function beyond the buffer's bound. -/
theorem test_cmdAsm_two_groups : cmdAsm Config.sg33 0x2061#16 [0x1234#16, 0x5678#16] =
    [0x20#8, 0x61#8, 0x12#8, 0x34#8, 0x37#8, 0x56#8, 0x78#8, 0x7D#8] := by decide +kernel

/-- V80, V84, V85, V86, V87. -/
theorem test_wordChk : wordChk Config.sg33 0xBE#8 0xEF#8 0x92#8 = true ∧
    wordChk Config.sg33 0x00#8 0x00#8 0x00#8 = false ∧
    wordChk Config.sg33 0xFF#8 0xFF#8 0xFF#8 = false ∧
    wordChk Config.sg33 0xFF#8 0x00#8 0x00#8 = true ∧
    wordChk Config.sg33 0xEF#8 0xBE#8 0x92#8 = false := by decide +kernel

/-- V81. -/
theorem test_exec_wordChk : events (exec (.wordChk 0xBE#8 0xEF#8 0x93#8) idle) =
    some [.result (.bit false)] := by decide +kernel

/-- V89. -/
theorem test_wordDec : wordDec 0x00#8 0xFF#8 = 0x00FF#16 ∧ wordDec 0xFF#8 0x00#8 = 0xFF00#16 := by
  decide

/-- V88. -/
theorem test_exec_wordDec : events (exec (.wordDec 0x1A#8 0x2B#8) idle) =
    some [.result (.word 0x1A2B#16)] := by decide

/-- R134 gives no result for a word that is not all there; the operation completes, and the word before it, which
verifies (V93), has been checked: `ACC` holds its checksum. -/
theorem test_exec_frameVal_short_frame :
    (match exec (.frameVal 2 [0x1A#8, 0x2B#8, 0x6D#8, 0x3C#8]) idle with
      | .next t => some t.acc
      | _ => none) = some 0x6D#8 := by decide +kernel

/-- V95: the lowest failing index. -/
theorem test_frameVal_first_corrupt :
    frameVal Config.sg33 2 [0x1A#8, 0x2B#8, 0x6C#8, 0x3C#8, 0x4D#8, 0xF7#8] = .corrupt 0 := by
  decide +kernel

/-- V93. -/
theorem test_exec_frameVal :
    events (exec (.frameVal 2 [0x1A#8, 0x2B#8, 0x6D#8, 0x3C#8, 0x4D#8, 0xF7#8]) idle) =
      some [.result (.frame (.corrupt 1))] := by decide +kernel

/-- V52, V54, V57, V58, V59d. -/
theorem test_humScale : humScale 4 = 1#16 ∧ humScale 1001 = 0x0100#16 ∧
    humScale 255999 = 0xFFFE#16 ∧ humScale 256000 = 0xFFFF#16 ∧
    humScale 65536 = 0x4189#16 := by decide +kernel

/-- V55. -/
theorem test_exec_humScale : events (exec (.humScale 11570) idle) =
    some [.result (.word 0x0B91#16)] := by decide +kernel

/-! ### EXECUTE and the commands -/

/-- The worked example of R150. -/
theorem test_execute :
    events (exec (.execute ⟨0x2008#16, [], 12, 2⟩) (answered [true] 1 [some goodMeas])) =
      some [.write 0x58#7 [0x20#8, 0x08#8], .sleep 12, .read 0x58#7 6,
        .response ⟨true, .none, [0x1A2B#16, 0x3C4D#16]⟩] := by decide +kernel

/-- R150: no result register is written. -/
theorem test_execute_stores_nothing :
    results (exec (.execute ⟨0x2008#16, [], 12, 2⟩) (answered [true] 1 [some goodMeas])) =
      some [0x0190#16, 0x0005#16, 0x1111#16, 0x2222#16] := by decide +kernel

/-- V108. -/
theorem test_ident : events (exec .ident (answered [true] 1 [some goodIdent])) =
    some [.write 0x58#7 [0x36#8, 0x82#8], .sleep 10, .read 0x58#7 9,
      .response ⟨true, .none, [0x0000#16, 0x0190#16, 0x0B6F#16]⟩] := by decide +kernel

/-- V47: bits [7:4] count, not [15:12]. -/
theorem test_feat_high_byte_does_not_count :
    events (exec .feat (answered [true] 1 [some [0x20#8, 0x00#8, 0x5D#8]])) =
      some [.write 0x58#7 [0x20#8, 0x2F#8], .sleep 10, .read 0x58#7 3,
        .response ⟨false, .familyMismatch, []⟩] := by decide +kernel

/-- V49: the checksum is tested before the family. -/
theorem test_feat_checksum_first :
    (events (exec .feat (answered [true] 1 [some [0x00#8, 0x22#8, 0x64#8]]))).map List.getLast? =
      some (some (.response ⟨false, .checksumMismatch, []⟩)) := by decide +kernel

/-- V106. -/
theorem test_init : events (exec .init (answered [true] 1 [])) =
    some [.write 0x58#7 [0x20#8, 0x03#8], .sleep 10, .response ⟨true, .none, []⟩] := by decide +kernel

/-- V107. -/
theorem test_init_failed_write : events (exec .init (answered [false] 1 [])) =
    some [.write 0x58#7 [0x20#8, 0x03#8], .response ⟨false, .transportWrite, []⟩] := by
  decide +kernel

/-- V100. -/
theorem test_meas : results (exec .meas (answered [true] 1 [some goodMeas])) =
    some [0x1A2B#16, 0x3C4D#16, 0x1111#16, 0x2222#16] := by decide +kernel

/-- V103: one corrupt word, nothing stored. -/
theorem test_meas_corrupt :
    results (exec .meas (answered [true] 1 [some [0x1A#8, 0x2B#8, 0x6D#8, 0x3C#8, 0x4D#8, 0x00#8]])) =
      some [0x0190#16, 0x0005#16, 0x1111#16, 0x2222#16] := by decide +kernel

/-- V104. -/
theorem test_measRaw :
    results (exec .measRaw (answered [true] 1 [some [0x33#8, 0xAA#8, 0x39#8, 0x44#8, 0xBB#8, 0xDE#8]])) =
      some [0x0190#16, 0x0005#16, 0x33AA#16, 0x44BB#16] := by decide +kernel

/-- P6: the hang. -/
theorem test_measRaw_hang :
    (after (exec .measRaw (answered [true] 1 []))).map (fun t => (t.busy, t.phase, t.out)) =
      some (true, .read, [.write 0x58#7 [0x20#8, 0x50#8], .sleep 25, .read 0x58#7 6]) := by
  decide +kernel

/-- V55. -/
theorem test_setHum : events (exec (.setHum 11570) (answered [true] 1 [])) =
    some [.write 0x58#7 [0x20#8, 0x61#8, 0x0B#8, 0x91#8, 0x93#8], .sleep 10,
      .response ⟨true, .none, []⟩] := by decide +kernel

/-- V59. -/
theorem test_setHum_above_range : events (exec (.setHum 256001) (answered [true] 1 [])) =
    some [.response ⟨false, .inputRange, []⟩] := by decide +kernel

/-- R177, V59: with 18 bits of operand the range check is the same (D10). -/
theorem test_setHum_narrow_operand :
    events (execIn { Config.sg33 with argWidth := 18 } (.setHum 256001) (answered [true] 1 [])) =
      some [.response ⟨false, .inputRange, []⟩] := by decide +kernel

/-- V120. -/
theorem test_begin :
    (after (exec .beginSeq { answered [true, true, true] 3
        [some goodIdent, some [0x00#8, 0x22#8, 0x65#8]] with ready := false })).map
      (fun t => (t.ready, t.out)) =
    some (true, [.write 0x58#7 [0x36#8, 0x82#8], .sleep 10, .read 0x58#7 9,
      .write 0x58#7 [0x20#8, 0x2F#8], .sleep 10, .read 0x58#7 3,
      .write 0x58#7 [0x20#8, 0x03#8], .sleep 10, .response ⟨true, .none, []⟩]) := by decide +kernel

/-- V126: from Ready, the family does not match (decision D14). -/
theorem test_begin_family_from_ready :
    (after (exec .beginSeq (answered [true, true] 2
        [some goodIdent, some [0x00#8, 0x10#8, 0xC2#8]]))).map
      (fun t => (t.ready, t.out.getLast?)) =
    some (false, some (.response ⟨false, .familyMismatch, []⟩)) := by decide +kernel

/-- R91: each reserved code. -/
theorem test_reserved :
    [Instr.reserved7, .reservedB, .reservedC, .reservedD, .reservedE, .reservedF].map
        (fun i => events (exec i idle)) =
      List.replicate 6 (some [.response ⟨false, .refused, []⟩]) := by decide

/-- R201: the codes of the causes. -/
theorem test_cause_codes :
    [Cause.none, .transportWrite, .transportRead, .checksumMismatch, .familyMismatch, .inputRange,
      .refused].map Cause.code = [0, 1, 2, 3, 4, 5, 7] := by decide

/-- P3, second line, with `TRACE_EN`. -/
theorem test_trace :
    (after (measIn { Config.sg33 with traceEn := true } (answered [true] 1
        [some [0x1A#8, 0x2B#8, 0x6D#8, 0x3C#8, 0x4D#8, 0xF7#8]]))).map State.out =
      some [.write 0x58#7 [0x20#8, 0x08#8], .sleep 12, .read 0x58#7 6, .trace 0 0x6D#8 0x6D#8,
        .trace 1 0xF6#8 0xF7#8, .response ⟨false, .checksumMismatch, []⟩] := by decide +kernel

/-- R236: a request presented while busy is held. -/
theorem test_request_while_busy_held :
    (after (exec .meas waiting)).map State.reqs = some [⟨0x3#4, 0⟩] := by decide

/-- R231: a reset that lands in `ASSEMBLE`: the request has been accepted and nothing has been written. -/
theorem test_reset_in_assemble :
    (after (step { requested 0x3#4 0 idle with rst := some 1 })).map (fun t => (t.reqs, t.out)) =
      some ([], []) := by decide

/-- R231: reset while busy; the registers the spec gives a value. -/
theorem test_reset_while_busy :
    (after (step { waiting with rst := some 0, ready := true })).map
      (fun t => (t.busy, t.phase, t.ready, t.cacc, t.out)) =
    some (false, .idle, false, 0xFF#8, []) := by decide

/-! ### Witnesses: states and operands that meet the hypotheses of each statement, all together -/

/-- `BEGIN` waiting for its first write. -/
def waitingWrite : State :=
  { idle with busy := true, phase := .write, job := some .beginSeq, txbuf := [0x36#8, 0x82#8] }

/-- `SETHUM` waiting for its sleep. -/
def waitingSleep : State :=
  { idle with
    busy := true, phase := .settle, job := some .setHum, arg := 0
    txbuf := [0x20#8, 0x61#8, 0x00#8, 0x00#8, 0x81#8] }

/-- `INIT` waiting for its write. -/
def waitingInit : State :=
  { idle with busy := true, phase := .write, job := some .init, txbuf := [0x20#8, 0x03#8] }

theorem witness_idle_inv : idle.Inv Config.sg33 where
  sequencer := by decide
  waiting := .inl rfl
  txBound := by decide
  rxBound := by decide
  idleEmpty := by decide
  frame := by rintro j ⟨⟩
  readWords := by rintro j ⟨⟩
  bounds := by rintro x ⟨⟩
  argWidth := by decide
  inRange := by decide

theorem witness_waiting_inv : waiting.Inv Config.sg33 where
  sequencer := by decide
  waiting := by decide
  txBound := by decide
  rxBound := by decide
  idleEmpty := by decide
  frame := by rintro j ⟨⟩; decide
  readWords := by rintro j ⟨⟩; decide
  bounds := by rintro x ⟨⟩
  argWidth := by decide
  inRange := by decide

theorem witness_waitingWrite_inv : waitingWrite.Inv Config.sg33 where
  sequencer := by decide
  waiting := by decide
  txBound := by decide
  rxBound := by decide
  idleEmpty := by decide
  frame := by rintro j ⟨⟩; decide
  readWords := by rintro j ⟨⟩; decide
  bounds := by rintro x ⟨⟩
  argWidth := by decide
  inRange := by decide

theorem witness_waitingSleep_inv : waitingSleep.Inv Config.sg33 where
  sequencer := by decide
  waiting := by decide
  txBound := by decide
  rxBound := by decide
  idleEmpty := by decide
  frame := by rintro j ⟨⟩; decide +kernel
  readWords := by rintro j ⟨⟩; decide
  bounds := by rintro x ⟨⟩
  argWidth := by decide
  inRange := by decide

theorem witness_waitingInit_inv : waitingInit.Inv Config.sg33 where
  sequencer := by decide
  waiting := by decide
  txBound := by decide
  rxBound := by decide
  idleEmpty := by decide
  frame := by rintro j ⟨⟩; decide
  readWords := by rintro j ⟨⟩; decide
  bounds := by rintro x ⟨⟩
  argWidth := by decide
  inRange := by decide

/-- The state s with these answers to come. -/
def withAnswers (s : State) (ws : List Bool) (n : Nat) (rs : List (Option (List Byte))) : State :=
  { s with writeAnswers := ws, wakeups := n, readAnswers := rs }

theorem withAnswers_inv {s : State} (h : s.Inv Config.sg33) (ws : List Bool) (n : Nat)
    (rs : List (Option (List Byte))) : (withAnswers s ws n rs).Inv Config.sg33 :=
  h.with_inputs s.rst s.reqs ws n rs

/-- The operation j in its substep u, waiting in this phase, without an answer. -/
def waitingFor (j : Job) (u : Substep) (p : Phase) : State :=
  { idle with
    busy := true, phase := p, job := some j, substep := u
    txbuf := cmdAsm Config.sg33 (j.xact u 7).code (j.xact u 7).payload }

/-- s goes on with j in its substep u, its missing answers are there, and these are left. -/
def GoesOn (s : State) (j : Job) (u : Substep) (ws : List Bool) (n : Nat)
    (rs : List (Option (List Byte))) : Prop :=
  s.Inv Config.sg33 ∧ s.rst = none ∧ s.job = some j ∧ s.substep = u ∧ s.restAnswered ws n ∧
    s.readAnswers = rs

theorem waitingFor_inv {j : Job} {u : Substep} {p : Phase}
    (hp : p = .write ∨ p = .settle ∨ p = .read) (hr : p = .read → 1 ≤ (j.xact u 7).words)
    (hg : (j.xact u 7).payload.length ≤ 1) (hx : ∀ x, j = .execute x → x.wellFormed = true) :
    (waitingFor j u p).Inv Config.sg33 where
  sequencer := by rcases hp with rfl | rfl | rfl <;> rfl
  waiting := .inr hp
  txBound := by
    show (cmdAsm _ _ _).length ≤ 5
    rw [cmdAsm_length]
    omega
  rxBound := Nat.zero_le 9
  idleEmpty := by rcases hp with rfl | rfl | rfl <;> rintro ⟨⟩
  frame := by rintro j' ⟨⟩; rfl
  readWords := by rintro j' ⟨⟩ h; exact hr h
  bounds := by rintro x ⟨⟩; exact hx x rfl
  argWidth := by show 7 < _; decide
  inRange := fun _ => by show humInRange 7 = true; decide

/-- The write answer comes, and the rest is there. -/
theorem goesOn_write {j : Job} {u : Substep} (hg : (j.xact u 7).payload.length ≤ 1)
    (hx : ∀ x, j = .execute x → x.wellFormed = true) (ws : List Bool) (n : Nat)
    (rs : List (Option (List Byte))) :
    GoesOn (withAnswers (waitingFor j u .write) (true :: ws) (n + 1) rs) j u ws n rs :=
  ⟨withAnswers_inv (waitingFor_inv (.inl rfl) nofun hg hx) _ _ _, rfl, rfl, rfl,
    .inl ⟨rfl, rfl, rfl⟩, rfl⟩

/-- The sleep is answered, and the rest is there. -/
theorem goesOn_settle {j : Job} {u : Substep} (hg : (j.xact u 7).payload.length ≤ 1)
    (hx : ∀ x, j = .execute x → x.wellFormed = true) (ws : List Bool) (n : Nat)
    (rs : List (Option (List Byte))) :
    GoesOn (withAnswers (waitingFor j u .settle) ws (n + 1) rs) j u ws n rs :=
  ⟨withAnswers_inv (waitingFor_inv (.inr (.inl rfl)) nofun hg hx) _ _ _, rfl, rfl, rfl,
    .inr (.inl ⟨rfl, rfl, rfl⟩), rfl⟩

/-- The read is answered. -/
theorem goesOn_read {j : Job} {u : Substep} (hr : 1 ≤ (j.xact u 7).words)
    (hg : (j.xact u 7).payload.length ≤ 1) (hx : ∀ x, j = .execute x → x.wellFormed = true)
    (ws : List Bool) (n : Nat) (rs : List (Option (List Byte))) :
    GoesOn (withAnswers (waitingFor j u .read) ws n rs) j u ws n rs :=
  ⟨withAnswers_inv (waitingFor_inv (.inr (.inr rfl)) (fun _ => hr) hg hx) _ _ _, rfl, rfl, rfl,
    .inr (.inr ⟨rfl, rfl, rfl⟩), rfl⟩

/-- A waiting engine, an idle one, one of another configuration, and an input that comes. -/
theorem witness_StepKeepsInvariant :
    (waiting.Inv Config.sg33 ∧ idle.Inv Config.sg33) ∧ (∃ t, stepIn Config.sg33 waiting = .next t) ∧
      ∃ t, waiting.input (.readAnswer none) = some t :=
  ⟨⟨witness_waiting_inv, witness_idle_inv⟩, ⟨_, stepIn_sg33 waiting⟩, _, rfl⟩

/-- One state for each agent to be the enabled one, and an input of each outside agent and of the reset. -/
theorem witness_ExactlyOneAgentIsEnabled :
    (idle.sequencerOk = true ∧ idle.rst = none ∧ idle.enabled Config.sg33 .host = true ∧
        (idle.input (.request ⟨0x3#4, 0⟩)).isSome = true ∧ (idle.input (.writeAnswer true)) = none) ∧
      (waiting.sequencerOk = true ∧ waiting.rst = none ∧
        waiting.enabled Config.sg33 .transport = true ∧
        (waiting.input (.readAnswer none)).isSome = true ∧ (waiting.input (.writeAnswer true)) = none) ∧
      (waitingWrite.sequencerOk = true ∧ waitingWrite.enabled Config.sg33 .transport = true ∧
        (waitingWrite.input (.writeAnswer true)).isSome = true) ∧
      (waitingSleep.sequencerOk = true ∧ waitingSleep.enabled Config.sg33 .delay = true ∧
        (waitingSleep.input .wakeup).isSome = true ∧ (waitingSleep.input (.reset 0)).isSome = true) ∧
      (requested 0x3#4 0 idle).sequencerOk = true ∧
        (requested 0x3#4 0 idle).enabled Config.sg33 .engine = true ∧
        Config.sg33.wellFormed = true := by decide +kernel

/-- An answer that belongs to its request, in each wait, a reset that drops one among them, and an input that gives one. -/
theorem witness_ExactlyOneAgentIsEnabled_answers :
    (withAnswers waitingWrite [true] 0 []).ownAnswers ∧ (withAnswers waitingSleep [] 1 []).ownAnswers ∧
      (withAnswers waiting [] 0 [none]).ownAnswers ∧ waiting.ownAnswers ∧ idle.ownAnswers ∧
      (∃ t, stepIn Config.sg33 { withAnswers waitingSleep [] 1 [] with rst := some 0 } = .next t) ∧
      ∃ t, waitingSleep.input .wakeup = some t := by
  refine ⟨?_, ?_, ?_, ?_, ?_, ⟨_, stepIn_sg33 _⟩, _, rfl⟩ <;> unfold State.ownAnswers <;> decide

theorem witness_StepRunsTheEncodedInstruction :
    (encode (.crcUpd 0xBE) = some ⟨0x9#4, 0xBE⟩ ∧ (requested 0x9#4 0xBE idle).rst = none ∧
      (requested 0x9#4 0xBE idle).sequencerOk = true ∧ (requested 0x9#4 0xBE idle).busy = false ∧
      (requested 0x9#4 0xBE idle).reqs = [⟨0x9#4, 0xBE⟩]) ∧
    (decodeRequest ⟨0x0#4, 5⟩ = .ident ∧ (0x0#4 : Op) ≠ 0x5#4 ∧ (0x0#4 : Op) ≠ 0x9#4) ∧
    (idle.rst = none ∧ idle.sequencerOk = true ∧ idle.busy = false ∧ idle.reqs = []) := by decide

/-- R233: the wake-up of an abandoned `SETHUM` that a reset found not yet taken is gone, so that a `MEAS` after it waits for
its own. -/
theorem test_reset_drops_an_answer_not_taken :
    (after (step { withAnswers waitingSleep [] 1 [] with rst := some 0 })).map State.wakeups =
      some 0 := by decide

/-- A reset that lands at once, and one that lands in `VERIFY`, after the read of `MEAS` is answered. -/
theorem witness_ResetEventAbandonsTheOperation :
    ({ waiting with rst := some 0 } : State).rst = some 0 ∧
      ({ waiting with rst := some 1, readAnswers := [some goodMeas] } : State).rst = some 1 ∧
      (({ waiting with rst := some 1, readAnswers := [some goodMeas] } : State).beforeReset
        Config.sg33 1).phase = .verify := by decide

theorem witness_RequestWhileBusyIsHeld :
    (waiting.rst = none ∧ waiting.sequencerOk = true ∧ waiting.busy = true) ∧
      encode .reserved7 = some ⟨0x7#4, 0⟩ := by decide

/-- The three waits; an operation that is accepted, with each missing answer; one that goes on with each. -/
theorem witness_UnansweredRequestWaitsForEver :
    ((waitingWrite.rst = none ∧ waitingWrite.sequencerOk = true ∧ waitingWrite.phase = .write ∧
        waitingWrite.writeAnswers = []) ∧
      (waitingSleep.rst = none ∧ waitingSleep.sequencerOk = true ∧ waitingSleep.phase = .settle ∧
        waitingSleep.wakeups = 0) ∧
      waiting.rst = none ∧ waiting.sequencerOk = true ∧ waiting.phase = .read ∧
        waiting.readAnswers = []) ∧
    (firstXact Config.sg33 .beginSeq = some xactIdent ∧ Instr.toJob .beginSeq = some .beginSeq ∧
      1 ≤ xactIdent.words ∧ idle.busy = false ∧ idle.writeAnswers = [] ∧
      (answered [true] 0 []).writeAnswers = [true] ∧ (answered [true] 0 []).wakeups = 0 ∧
      (answered [true] 1 []).wakeups = 0 + 1 ∧ (answered [true] 1 []).readAnswers = []) ∧
    ((withAnswers waitingWrite [true] 0 []).Inv Config.sg33 ∧
      (withAnswers waitingWrite [true] 0 []).phase = .write ∧
      (withAnswers waitingWrite [true] 0 []).wakeups = 0) ∧
    GoesOn (withAnswers (waitingFor .feat .identify .write) [true] 1 []) .feat .identify [] 0 [] ∧
    GoesOn (withAnswers (waitingFor .feat .identify .settle) [] 1 []) .feat .identify [] 0 [] ∧
    1 ≤ (Job.feat.xact .identify 7).words :=
  ⟨by decide, by decide, ⟨withAnswers_inv witness_waitingWrite_inv _ _ _, rfl, rfl⟩,
    goesOn_write (by decide) (by simp) _ _ _, goesOn_settle (by decide) (by simp) _ _ _, by decide⟩

/-- An operation that is accepted and waits, and one that goes on and waits again. -/
theorem witness_RunEndsOnlyIdleOrWaiting :
    (idle.rst = none ∧ idle.busy = false ∧ ∃ t, exec .beginSeq idle = .next t ∧ t.busy = true) ∧
      (withAnswers waitingWrite [true] 0 []).rst = none ∧
      (withAnswers waitingWrite [true] 0 []).sequencerOk = true ∧
      (withAnswers waitingWrite [true] 0 []).busy = true ∧
      ∃ t, step (withAnswers waitingWrite [true] 0 []) = .next t ∧ t.busy = true :=
  ⟨⟨rfl, rfl, _, rfl, rfl⟩, rfl, rfl, rfl, _, rfl, rfl⟩

theorem witness_PhaseTransitionsAreThoseOfTheTable :
    (advance Config.sg33 { waiting with readAnswers := [none] }).isSome = true := by decide

theorem witness_RequestsDecodeToWhatTheyEncode : encode (.setHum 5) = some ⟨0x5#4, 5⟩ := by
  decide

theorem witness_CommandFramesDecodeToTheirCommand :
    encodeFrame Config.sg33 (.setHum 256000) =
        some [0x20#8, 0x61#8, 0xFF#8, 0xFF#8, 0xAC#8] ∧
      encodeFrame Config.sg33 .ident = some [0x36#8, 0x82#8] := by decide +kernel

theorem witness_OnlyCommandFramesDecode :
    decodeFrame Config.sg33 [0x20#8, 0x61#8, 0x00#8, 0x00#8, 0x81#8] = .ok (.setHum 0) := by
  decide +kernel

theorem witness_CommandsWriteTheirFrame :
    encodeFrame Config.sg33 .meas = some [0x20#8, 0x08#8] ∧ idle.busy = false := by decide

theorem witness_BitStepShiftsAndXorsThePolynomial : (0x7F#8 : Byte) < 0x80#8 := by decide

theorem witness_ByteStepXorsThenShiftsEightTimes :
    (0xFF#8 ^^^ 0x00#8 : Byte) = 0x00#8 ^^^ 0xFF#8 := by decide

theorem witness_ChecksumIsLinear :
    ([0xBE#8, 0xEF#8] : List Byte).length = ([0x00#8, 0x00#8] : List Byte).length := by decide

theorem witness_OddPolynomialStepsAreBijections : Config.sg33.poly.getLsbD 0 = true := by decide

theorem witness_OneTamperedByteIsDetected : Config.sg33.poly.getLsbD 0 = true ∧
    wordChk Config.sg33 0xBE#8 0xEF#8 0x92#8 = true ∧ (0x01#8 : Byte) ≠ 0 := by decide +kernel

theorem witness_ChecksumPortOperations : idle.busy = false := rfl

/-- The idle engine with the requests that compute the checksum of these bytes through the port (P5). -/
def portRequests (d : List Byte) : State :=
  { idle with reqs := ⟨0x8#4, 0⟩ :: (d.map fun b => ⟨0x9#4, b.toNat⟩) ++ [⟨0xA#4, 0⟩] }

theorem witness_ChecksumPortComputesTheChecksum :
    (portRequests [0xBE#8, 0xEF#8]).rst = none ∧ (portRequests [0xBE#8, 0xEF#8]).sequencerOk = true ∧
      (portRequests [0xBE#8, 0xEF#8]).busy = false ∧
      (portRequests [0xBE#8, 0xEF#8]).reqs =
        [⟨0x8#4, 0⟩, ⟨0x9#4, 0xBE⟩, ⟨0x9#4, 0xEF⟩, ⟨0xA#4, 0⟩] ∧
      (portRequests []).reqs = [⟨0x8#4, 0⟩, ⟨0xA#4, 0⟩] := by decide

theorem witness_CommandAssemblerFillsTheBuffer :
    ([0xFFFF#16] : List Word).length ≤ 1 ∧ ¬ ([0#16, 0#16] : List Word).length ≤ 1 := by decide

/-- A frame of one word that verifies, and one of three that does not; the bounds 1 and 3. -/
theorem witness_FrameAcceptedExactlyWhenAllWordsVerify :
    ([0x00#8, 0x22#8, 0x65#8] : List Byte).length = 3 * 1 ∧
      frameVal Config.sg33 1 [0x00#8, 0x22#8, 0x65#8] = .ok [0x0022#16] ∧
      (List.replicate 9 (0#8 : Byte)).length = 3 * 3 ∧
      frameVal Config.sg33 3 (List.replicate 9 0#8) = .corrupt 0 := by decide +kernel

/-- `FRAME.VAL` at both bounds of its word count. -/
theorem witness_FramingAndScalingOperationsShowTheirResult :
    (1 ≤ 1 ∧ 1 ≤ 3 ∧ (List.replicate 3 (0#8 : Byte)).length = 3 * 1) ∧
      1 ≤ 3 ∧ 3 ≤ 3 ∧ (List.replicate 9 (0#8 : Byte)).length = 3 * 3 := by decide

theorem witness_OperandsOutOfBoundsAreRefused :
    execIn Config.sg33 (.execute ⟨0#16, [], 0, 4⟩) idle = .refused .operands ∧ idle.busy = false ∧
      1 < (⟨0#16, [0#16, 0#16], 0, 0⟩ : Xact).payload.length ∧
      3 < (⟨0#16, [], 0, 4⟩ : Xact).words ∧ waiting.busy = true ∧
      crc8 { Config.sg33 with init := 0x00#8 } [0xBE#8, 0xEF#8] ≠ 0x92#8 ∧
      crc8 Config.sg33 [0xBE#8, 0xEF#8] = 0x92#8 :=
  ⟨(execIn_of_wellFormed sg33_wellFormed).trans rfl, by decide +kernel⟩

/-- V73 is beyond the bound; this is an `EXECUTE` at both bounds, and its good reply. -/
def fullXact : Xact := ⟨0x2061#16, [0x0B91#16], 10, 3⟩

theorem witness_ExecuteReturnsTheVerifiedWords :
    (fullXact.payload.length ≤ 1 ∧ 1 ≤ fullXact.words ∧ fullXact.words ≤ 3 ∧
      (answered [true] 1 [some goodIdent]).busy = false ∧
      (answered [true] 1 [some goodIdent]).writeAnswers = [true] ∧
      (answered [true] 1 [some goodIdent]).wakeups = 0 + 1 ∧
      (answered [true] 1 [some goodIdent]).readAnswers = [some goodIdent] ∧
      goodIdent.length = 3 * fullXact.words ∧
      frameVal Config.sg33 fullXact.words goodIdent = .ok [0x0000#16, 0x0190#16, 0x0B6F#16]) ∧
    GoesOn (withAnswers (waitingFor (.execute fullXact) .identify .write) [true] 1 [some goodIdent])
      (.execute fullXact) .identify [] 0 [some goodIdent] :=
  ⟨by decide +kernel, goesOn_write (by decide) (by rintro x ⟨⟩; decide) _ _ _⟩

theorem witness_ZeroWordExecuteSucceedsWithoutARead :
    (xactInit.payload.length ≤ 1 ∧ xactInit.words = 0 ∧ (answered [true] 1 []).busy = false ∧
      (answered [true] 1 []).writeAnswers = [true] ∧ (answered [true] 1 []).wakeups = 0 + 1) ∧
    GoesOn (withAnswers (waitingFor (.execute xactInit) .identify .settle) [] 1 [])
      (.execute xactInit) .identify [] 0 [] ∧
    (advance Config.sg33 { waitingSleep with wakeups := 1 }).isSome = true :=
  ⟨by decide, goesOn_settle (by decide) (by rintro x ⟨⟩; decide) _ _ _, by decide⟩

/-- An operation whose write fails at once, `BEGIN` among them, and one that waits for the answer. -/
theorem witness_FailedWriteEndsTheOperationAtOnce :
    (firstXact Config.sg33 (.setHum 256000) = some ⟨0x2061#16, [0xFFFF#16], 10, 0⟩ ∧
        firstXact Config.sg33 .beginSeq = some xactIdent ∧
        firstXact Config.sg33 (.execute fullXact) = some fullXact ∧
        (answered [false] 0 []).busy = false ∧ (answered [false] 0 []).writeAnswers = [false]) ∧
      (withAnswers waitingWrite [false] 0 []).Inv Config.sg33 ∧
        (withAnswers waitingWrite [false] 0 []).rst = none ∧
        (withAnswers waitingWrite [false] 0 []).job = some .beginSeq ∧
        (withAnswers waitingWrite [false] 0 []).phase = .write ∧
        (withAnswers waitingWrite [false] 0 []).writeAnswers = [false] :=
  ⟨by decide +kernel, withAnswers_inv witness_waitingWrite_inv _ _ _, rfl, rfl, rfl, rfl⟩

theorem witness_FailedReadEndsTheTransaction :
    (firstXact Config.sg33 .measRaw = some ⟨0x2050#16, [], 25, 2⟩ ∧ 1 ≤ 2 ∧
        (answered [true] 1 [none]).busy = false ∧ (answered [true] 1 [none]).writeAnswers = [true] ∧
        (answered [true] 1 [none]).wakeups = 0 + 1 ∧ (answered [true] 1 [none]).readAnswers = [none]) ∧
      (withAnswers waiting [] 0 [none]).Inv Config.sg33 ∧ (withAnswers waiting [] 0 [none]).rst = none ∧
        (withAnswers waiting [] 0 [none]).job = some .meas ∧
        (withAnswers waiting [] 0 [none]).phase = .read ∧
        (withAnswers waiting [] 0 [none]).readAnswers = [none] :=
  ⟨by decide, withAnswers_inv witness_waiting_inv _ _ _, rfl, rfl, rfl, rfl⟩

theorem witness_ReadOfTheWrongLengthIsAFailure :
    (firstXact Config.sg33 .feat = some ⟨0x202F#16, [], 10, 1⟩ ∧ 1 ≤ 1 ∧
        (answered [true] 1 [some [0x00#8, 0x22#8]]).busy = false ∧
        (answered [true] 1 [some [0x00#8, 0x22#8]]).writeAnswers = [true] ∧
        (answered [true] 1 [some [0x00#8, 0x22#8]]).wakeups = 0 + 1 ∧
        (answered [true] 1 [some [0x00#8, 0x22#8]]).readAnswers = [some [0x00#8, 0x22#8]] ∧
        ([0x00#8, 0x22#8] : List Byte).length ≠ 3 * 1) ∧
      (withAnswers waiting [] 0 [some []]).rst = none ∧
        (withAnswers waiting [] 0 [some []]).job = some .meas ∧
        (withAnswers waiting [] 0 [some []]).phase = .read ∧
        (withAnswers waiting [] 0 [some []]).readAnswers = [some []] ∧
        ([] : List Byte).length ≠ 3 * (Job.meas.xact waiting.substep waiting.arg).words := by decide

theorem witness_CorruptWordFailsTheWholeTransaction :
    (firstXact Config.sg33 .ident = some ⟨0x3682#16, [], 10, 3⟩ ∧ 1 ≤ 3 ∧
        (answered [true] 1 [some (List.replicate 9 0#8)]).busy = false ∧
        (answered [true] 1 [some (List.replicate 9 0#8)]).writeAnswers = [true] ∧
        (answered [true] 1 [some (List.replicate 9 0#8)]).wakeups = 0 + 1 ∧
        (answered [true] 1 [some (List.replicate 9 0#8)]).readAnswers = [some (List.replicate 9 0#8)] ∧
        (List.replicate 9 (0#8 : Byte)).length = 3 * 3 ∧
        frameVal Config.sg33 3 (List.replicate 9 0#8) = .corrupt 0) ∧
      (withAnswers waiting [] 0 [some (List.replicate 6 0#8)]).Inv Config.sg33 ∧
        (withAnswers waiting [] 0 [some (List.replicate 6 0#8)]).rst = none ∧
        (withAnswers waiting [] 0 [some (List.replicate 6 0#8)]).job = some .meas ∧
        (withAnswers waiting [] 0 [some (List.replicate 6 0#8)]).phase = .read ∧
        (withAnswers waiting [] 0 [some (List.replicate 6 0#8)]).readAnswers =
          [some (List.replicate 6 0#8)] ∧
        (List.replicate 6 (0#8 : Byte)).length =
          3 * (Job.meas.xact waiting.substep waiting.arg).words ∧
        frameVal Config.sg33 (Job.meas.xact waiting.substep waiting.arg).words
          (List.replicate 6 0#8) = .corrupt 0 :=
  ⟨by decide +kernel, withAnswers_inv witness_waiting_inv _ _ _, rfl, rfl, rfl, rfl, rfl,
    by decide +kernel⟩

/-- An operation that is accepted, and one that goes on from each of the three waits. -/
theorem witness_ExecuteWritesOnceAndReadsAtMostOnce :
    (firstXact Config.sg33 (.execute fullXact) = some fullXact ∧ Instr.execute fullXact ≠ .beginSeq ∧
        idle.busy = false) ∧
      (waiting.Inv Config.sg33 ∧ waiting.rst = none ∧ waiting.job = some .meas ∧
        Job.meas ≠ .beginSeq ∧ waiting.phase = .read) ∧
      (waitingSleep.Inv Config.sg33 ∧ waitingSleep.rst = none ∧ waitingSleep.job = some .setHum ∧
        Job.setHum ≠ .beginSeq ∧ waitingSleep.phase = .settle) ∧
      waitingInit.Inv Config.sg33 ∧ waitingInit.rst = none ∧ waitingInit.job = some .init ∧
        Job.init ≠ .beginSeq ∧ waitingInit.phase = .write :=
  ⟨by decide, ⟨witness_waiting_inv, rfl, rfl, by decide, rfl⟩,
    ⟨witness_waitingSleep_inv, rfl, rfl, by decide, rfl⟩,
    witness_waitingInit_inv, rfl, rfl, by decide, rfl⟩

/-- R233: a step that requests a read, from a state whose answer is that of its own sleep. -/
theorem witness_OperationsMakeTheirRequestsInOrder_read :
    let s := withAnswers (waitingFor .meas .identify .settle) [] 1 []
    s.ownAnswers ∧ ∃ t, stepIn Config.sg33 s = .next t ∧ t.out = s.out ++ [.read 0x58#7 6] := by
  refine ⟨by unfold State.ownAnswers; decide, _, stepIn_sg33 _, rfl⟩

/-- An operation that waits, one that ends, an internal one, and the two ways the step from a wait ends. -/
theorem witness_OperationsMakeTheirRequestsInOrder :
    (idle.busy = false ∧ (∃ t, exec .beginSeq idle = .next t ∧ t.busy = true) ∧
        (∃ t, exec .crcRd idle = .next t ∧ t.busy = false) ∧ Instr.crcRd.hostSelectable = true ∧
        (∃ t, exec (.wordDec 0 0) idle = .next t) ∧
        (Instr.wordDec 0 0).hostSelectable = false ∧ ∀ x, Instr.wordDec 0 0 ≠ .execute x) ∧
      (withAnswers waitingWrite [true] 1 []).Inv Config.sg33 ∧
        (withAnswers waitingWrite [true] 1 []).rst = none ∧
        (withAnswers waitingWrite [true] 1 []).busy = true ∧
        (∃ t, step (withAnswers waitingWrite [true] 1 []) = .next t ∧ t.busy = true ∧ t.phase = .read) ∧
        ∃ t, step (withAnswers waiting [] 0 [some goodMeas]) = .next t ∧ t.busy = false :=
  ⟨⟨rfl, ⟨_, rfl, rfl⟩, ⟨_, rfl, rfl⟩, rfl, ⟨_, rfl⟩, rfl, nofun⟩,
    withAnswers_inv witness_waitingWrite_inv _ _ _, rfl, rfl, ⟨_, rfl, rfl, rfl⟩, _, rfl,
    by decide +kernel⟩

theorem witness_IdentReturnsTheSerialIdentifier :
    ((answered [true] 1 [some goodIdent]).busy = false ∧
      (answered [true] 1 [some goodIdent]).writeAnswers = [true] ∧
      (answered [true] 1 [some goodIdent]).wakeups = 0 + 1 ∧
      (answered [true] 1 [some goodIdent]).readAnswers = [some goodIdent] ∧ goodIdent.length = 9 ∧
      frameVal Config.sg33 3 goodIdent = .ok [0x0000#16, 0x0190#16, 0x0B6F#16]) ∧
    GoesOn (withAnswers (waitingFor .ident .identify .read) [] 0 [some goodIdent]) .ident .identify [] 0
      [some goodIdent] :=
  ⟨by decide +kernel, goesOn_read (by decide) (by decide) (by simp) _ _ _⟩

/-- V41, which matches, and V45, which does not; the first also while the engine waits. -/
theorem witness_FeatTestsTheFamily :
    let same := [some [0x00#8, 0x22#8, crc8 Config.sg33 [0x00#8, 0x22#8]]]
    let other := [some [0x00#8, 0x10#8, crc8 Config.sg33 [0x00#8, 0x10#8]]]
    ((answered [true] 1 same).busy = false ∧ (answered [true] 1 same).writeAnswers = [true] ∧
        (answered [true] 1 same).wakeups = 0 + 1 ∧ (answered [true] 1 same).readAnswers = same ∧
        (0x00#8 ++ 0x22#8 : Word) &&& 0x00F0#16 = Config.sg33.expectedFamily) ∧
      ((answered [true] 1 other).busy = false ∧ (answered [true] 1 other).readAnswers = other ∧
        (0x00#8 ++ 0x10#8 : Word) &&& 0x00F0#16 ≠ Config.sg33.expectedFamily) ∧
      GoesOn (withAnswers (waitingFor .feat .identify .settle) [] 1 same) .feat .identify [] 0 same :=
  ⟨⟨rfl, rfl, rfl, rfl, by decide⟩, ⟨rfl, rfl, by decide⟩, goesOn_settle (by decide) (by simp) _ _ _⟩

theorem witness_InitSucceedsAfterTheSettleDelay :
    ((answered [true] 1 []).busy = false ∧ (answered [true] 1 []).writeAnswers = [true] ∧
      (answered [true] 1 []).wakeups = 0 + 1) ∧
    GoesOn (withAnswers (waitingFor .init .identify .write) [true] 1 []) .init .identify [] 0 [] :=
  ⟨by decide, goesOn_write (by decide) (by simp) _ _ _⟩

/-- A good two-word reply, for `MEAS` and `MEASRAW`. -/
def pairReply : List (Option (List Byte)) :=
  [some [0x1A#8, 0x2B#8, crc8 Config.sg33 [0x1A#8, 0x2B#8], 0x3C#8, 0x4D#8,
    crc8 Config.sg33 [0x3C#8, 0x4D#8]]]

/-- A state with that reply to come. -/
def goodPair : State := answered [true] 1 pairReply

theorem witness_MeasStoresTheVerifiedPair :
    (goodPair.busy = false ∧ goodPair.writeAnswers = [true] ∧ goodPair.wakeups = 0 + 1 ∧
      goodPair.readAnswers = [some [0x1A#8, 0x2B#8, crc8 Config.sg33 [0x1A#8, 0x2B#8], 0x3C#8,
        0x4D#8, crc8 Config.sg33 [0x3C#8, 0x4D#8]]]) ∧
    GoesOn (withAnswers (waitingFor .meas .identify .read) [] 0 pairReply) .meas .identify [] 0
      pairReply :=
  ⟨⟨rfl, rfl, rfl, rfl⟩, goesOn_read (by decide) (by decide) (by simp) _ _ _⟩

theorem witness_MeasRawStoresTheVerifiedPair :
    (goodPair.busy = false ∧ goodPair.writeAnswers = [true] ∧ goodPair.wakeups = 0 + 1 ∧
      goodPair.readAnswers = [some [0x1A#8, 0x2B#8, crc8 Config.sg33 [0x1A#8, 0x2B#8], 0x3C#8,
        0x4D#8, crc8 Config.sg33 [0x3C#8, 0x4D#8]]]) ∧
    GoesOn (withAnswers (waitingFor .measRaw .identify .settle) [] 1 pairReply) .measRaw .identify [] 0
      pairReply :=
  ⟨⟨rfl, rfl, rfl, rfl⟩, goesOn_settle (by decide) (by simp) _ _ _⟩

theorem witness_HumidityScalerIsTheExactFloor :
    (256000 : Nat) ≤ 256000 ∧ (255999 : Nat) ≤ 256000 := by decide

theorem witness_SetHumWritesTheScaledOperand :
    ((256000 : Nat) ≤ 256000 ∧ (answered [true] 1 []).busy = false ∧
      (answered [true] 1 []).writeAnswers = [true] ∧ (answered [true] 1 []).wakeups = 0 + 1) ∧
    GoesOn (withAnswers (waitingFor .setHum .identify .write) [true] 1 []) .setHum .identify [] 0 [] :=
  ⟨by decide, goesOn_write (by decide) (by simp) _ _ _⟩

/-- V59, the same with a wider operand in a wider engine, and a failed write. -/
theorem witness_HumidityOutOfRangeFailsWithoutTransport :
    (256000 < (256001 : Nat) ∧ (256001 : Nat) < 2 ^ 32 ∧ idle.busy = false) ∧
      (256000 < (2 ^ 40 : Nat) ∧
        (2 ^ 40 : Nat) < 2 ^ ({ Config.sg33 with argWidth := 48 } : Config).argWidth ∧
        ({ Config.sg33 with argWidth := 48 } : Config).wellFormed = true) ∧
      ∃ t, exec .init (answered [false] 0 []) = .next t ∧
        t.out = (answered [false] 0 []).out ++ [.write 0x58#7 [0x20#8, 0x03#8],
          .response ⟨false, .transportWrite, []⟩] :=
  ⟨by decide, by decide +kernel, _, rfl, rfl⟩

/-- The answers of the whole of `BEGIN` there; then each of its substeps, with the rest there and with nothing after it. -/
theorem witness_BeginSucceedsWithAllThreeSubsteps :
    let feat := [some [0x00#8, 0x22#8, crc8 Config.sg33 [0x00#8, 0x22#8]]]
    let s := answered [true, true, true] 3 (some goodIdent :: feat)
    (s.busy = false ∧ s.writeAnswers = [true, true, true] ∧ s.wakeups = 0 + 3 ∧
      s.readAnswers = some goodIdent :: feat ∧ goodIdent.length = 9 ∧
      frameVal Config.sg33 3 goodIdent = .ok [0x0000#16, 0x0190#16, 0x0B6F#16] ∧
      (0x00#8 ++ 0x22#8 : Word) &&& 0x00F0#16 = Config.sg33.expectedFamily) ∧
    ((answered [true] 1 [some goodIdent]).writeAnswers = [true] ∧
      (answered [true] 1 [some goodIdent]).wakeups = 0 + 1) ∧
    GoesOn (withAnswers (waitingFor .beginSeq .identify .read) [true, true] 2 (some goodIdent :: feat))
      .beginSeq .identify [true, true] (0 + 2) (some goodIdent :: feat) ∧
    GoesOn (withAnswers (waitingFor .beginSeq .identify .write) [true] 1 [some goodIdent])
      .beginSeq .identify [] 0 [some goodIdent] ∧
    GoesOn (withAnswers (waitingFor .beginSeq .readFeatures .settle) [true] 2 feat)
      .beginSeq .readFeatures [true] (0 + 1) feat ∧
    GoesOn (withAnswers (waitingFor .beginSeq .readFeatures .read) [] 0 feat)
      .beginSeq .readFeatures [] 0 feat ∧
    GoesOn (withAnswers (waitingFor .beginSeq .initMeas .settle) [] 1 []) .beginSeq .initMeas [] 0 [] :=
  ⟨⟨rfl, rfl, rfl, rfl, rfl, by decide +kernel, by decide⟩, ⟨rfl, rfl⟩,
    goesOn_read (by decide) (by decide) (by simp) _ _ _, goesOn_write (by decide) (by simp) _ _ _,
    goesOn_settle (by decide) (by simp) _ _ _, goesOn_read (by decide) (by decide) (by simp) _ _ _,
    goesOn_settle (by decide) (by simp) _ _ _⟩

/-- The answers of each clause: `IDENT`'s write, read and checksum (V122), `FEAT`'s write, read, checksum and family
(V124), `INIT`'s write. -/
theorem witness_BeginStopsAtTheFirstFailingSubstep :
    idle.busy = false ∧ (answered [false] 0 []).writeAnswers = [false] ∧
      (answered [true] 1 [none]).wakeups = 0 + 1 ∧ ([0#8] : List Byte).length ≠ 9 ∧
      (List.replicate 9 (0#8 : Byte)).length = 9 ∧
      frameVal Config.sg33 3 (List.replicate 9 0#8) = .corrupt 0 ∧
      goodIdent.length = 9 ∧
      frameVal Config.sg33 3 goodIdent = .ok [0x0000#16, 0x0190#16, 0x0B6F#16] ∧
      (answered [true, false] 1 [some goodIdent]).writeAnswers = true :: false :: [] ∧
      (answered [true, true] 2 [some goodIdent, none]).readAnswers = some goodIdent :: none :: [] ∧
      frameVal Config.sg33 1 [0x00#8, 0x22#8, 0x64#8] = .corrupt 0 ∧
      frameVal Config.sg33 1 [0x00#8, 0x10#8, 0xC2#8] = .ok [0x0010#16] ∧
      (0x0010#16 : Word) &&& 0x00F0#16 ≠ Config.sg33.expectedFamily ∧
      frameVal Config.sg33 1 [0x00#8, 0x22#8, 0x65#8] = .ok [0x0022#16] ∧
      (0x0022#16 : Word) &&& 0x00F0#16 = Config.sg33.expectedFamily ∧
      (answered [true, true, false] 2 [some goodIdent, some [0x00#8, 0x22#8, 0x65#8]]).writeAnswers =
        true :: true :: false :: [] := by decide +kernel

/-- `FEAT` of another family while `BEGIN` waits, with its read answered and with all its answers there. -/
theorem witness_BeginStopsAtTheFirstFailingSubstep_family :
    let ft := [some [0x00#8, 0x10#8, 0xC2#8]]
    GoesOn (withAnswers (waitingFor .beginSeq .readFeatures .read) [] 0 ft) .beginSeq .readFeatures [] 0
        ft ∧
      GoesOn (withAnswers (waitingFor .beginSeq .readFeatures .write) [true] 1 ft) .beginSeq
        .readFeatures [] 0 ft :=
  ⟨goesOn_read (by decide) (by decide) (by simp) _ _ _, goesOn_write (by decide) (by simp) _ _ _⟩

theorem witness_ReservedCodesAnswerRefused :
    Instr.reservedF ∈ [Instr.reserved7, .reservedB, .reservedC, .reservedD, .reservedE, .reservedF] ∧
      idle.busy = false := by decide

theorem witness_UninitialisedPolicyGuardsThreeOperations :
    (({ Config.sg33 with uninitPolicy := .refuse } : Config).uninitPolicy = .refuse ∧
        ({ idle with ready := false } : State).ready = false ∧ idle.busy = false ∧
        (256000 : Nat) ≤ 256000 ∧ 256000 < (256001 : Nat) ∧
        (256001 : Nat) < 2 ^ ({ Config.sg33 with uninitPolicy := .refuse } : Config).argWidth ∧
        ({ Config.sg33 with uninitPolicy := .refuse } : Config).wellFormed = true) ∧
      Config.sg33.wellFormed = true ∧ Config.sg33.uninitPolicy = .execute ∧ idle.ready = true := by
  decide +kernel

/-- The step that ends `MEAS`, and one that changes no result. -/
theorem witness_ResultPairsChangeTogetherAndOnlyOnSuccess :
    idle.Inv Config.sg33 ∧ idle.rst = none ∧ (∃ t, step idle = .next t) ∧
      ∃ t, exec .meas goodPair = .next t ∧ t.eco2 = 0x1A2B#16 ∧ t.tvoc = 0x3C4D#16 :=
  ⟨witness_idle_inv, rfl, ⟨_, rfl⟩, _, rfl, by decide +kernel, by decide +kernel⟩

theorem witness_OnlyBeginChangesReady :
    waiting.Inv Config.sg33 ∧ waiting.rst = none ∧ ∃ t, step waiting = .next t :=
  ⟨witness_waiting_inv, rfl, _, rfl⟩

theorem witness_FailureLeavesTheStateBehind :
    (withAnswers waiting [] 0 [none]).Inv Config.sg33 ∧ (withAnswers waiting [] 0 [none]).rst = none ∧
      ∃ t, step (withAnswers waiting [] 0 [none]) = .next t ∧
        t.out = (withAnswers waiting [] 0 [none]).out ++ [.response ⟨false, .transportRead, []⟩] :=
  ⟨withAnswers_inv witness_waiting_inv _ _ _, rfl, _, rfl, rfl⟩

theorem witness_TransactionsAndChecksumPortAreIndependent :
    ((∃ j, Instr.toJob .ident = some j) ∧ ∃ t, exec .ident idle = .next t) ∧
      waiting.rst = none ∧ waiting.busy = true ∧ ∃ t, step waiting = .next t :=
  ⟨⟨⟨_, rfl⟩, _, rfl⟩, rfl, rfl, _, rfl⟩

theorem witness_NoOperationReadsResultsOrReady :
    let s' : State := { idle with eco2 := 1, ready := false }
    s' = { idle with
        eco2 := s'.eco2, tvoc := s'.tvoc, rawH2 := s'.rawH2, rawEth := s'.rawEth
        ready := s'.ready } ∧
      (∃ t, exec .feat idle = .next t) ∧ ∃ t, step idle = .next t :=
  ⟨rfl, ⟨_, rfl⟩, _, rfl⟩

theorem witness_TheRecordOfEventsIsNeverRead :
    ∃ t, step (withAnswers waiting [] 0 [none]) = .next t := ⟨_, rfl⟩

/-- A reply to each kind of operation that shows its checks: from an idle engine, to a waiting one, `FRAME.VAL` at both
bounds. -/
theorem witness_TraceShowsEachCheckAndChangesNothingElse :
    (firstXact Config.sg33 .ident = some ⟨0x3682#16, [], 10, 3⟩ ∧ Instr.ident ≠ .beginSeq ∧ 1 ≤ 3 ∧
        firstXact Config.sg33 .beginSeq = some ⟨0x3682#16, [], 10, 3⟩ ∧
        frameVal Config.sg33 3 (List.replicate 9 0#8) = .corrupt 0 ∧
        Config.sg33.wellFormed = true ∧ Config.sg33.uninitPolicy = .execute ∧
        (answered [true] 1 [some goodIdent]).busy = false ∧
        (answered [true] 1 [some goodIdent]).writeAnswers = [true] ∧
        (answered [true] 1 [some goodIdent]).wakeups = 0 + 1 ∧
        (answered [true] 1 [some goodIdent]).readAnswers = [some goodIdent] ∧
        goodIdent.length = 3 * 3) ∧
      ((withAnswers waiting [] 0 [some goodMeas]).Inv Config.sg33 ∧
        (withAnswers waiting [] 0 [some goodMeas]).rst = none ∧
        (withAnswers waiting [] 0 [some goodMeas]).job = some .meas ∧
        (withAnswers waiting [] 0 [some goodMeas]).phase = .read ∧
        (withAnswers waiting [] 0 [some goodMeas]).readAnswers = [some goodMeas] ∧
        goodMeas.length = 3 * (Job.meas.xact waiting.substep waiting.arg).words ∧
        Job.meas ≠ .beginSeq) ∧
      (1 ≤ 1 ∧ 1 ≤ 3 ∧ (List.replicate 3 (0#8 : Byte)).length = 3 * 1) ∧
        1 ≤ 3 ∧ 3 ≤ 3 ∧ (List.replicate 9 (0#8 : Byte)).length = 3 * 3 :=
  ⟨by decide +kernel, ⟨withAnswers_inv witness_waiting_inv _ _ _, rfl, rfl, rfl, rfl, rfl, by decide⟩,
    by decide, by decide⟩

theorem witness_TransactionFrame :
    ((∃ j, Instr.toJob (.execute fullXact) = some j) ∧ idle.busy = false ∧
      ∃ t, exec (.execute fullXact) idle = .next t) ∧
    waiting.rst = none ∧ waiting.busy = true ∧ ∃ t, step waiting = .next t :=
  ⟨⟨⟨_, rfl⟩, rfl, _, rfl⟩, rfl, rfl, _, rfl⟩

end Sys2Proof.Tests
end

section
/-! PROOFS. What a host operation does to an idle engine, what the handling of a result does to the state, and the
atomic update of the result pairs (R22). -/

namespace Sys2Proof.Machine

section ResultPairs

variable {c : Config} {s t u : State} {i : Instr} {j : Job} {r : XactResult}

/-- A transaction-making operation starts from the state it finds, but for `SUBSTEP` and `ARG` (R28, R157, R178). -/
theorem accepted_eq_start (h : accepted c s i = some u) :
    ∃ j v a, Instr.toJob i = some j ∧ u = ({ s with substep := v, arg := a } : State).start j := by
  cases i <;> simp only [accepted, accepted.guarded, Option.ite_none_left_eq_some,
    Option.ite_none_right_eq_some, Option.some.injEq, reduceCtorEq] at h
  case setHum a => exact ⟨_, s.substep, argBits c a, rfl, h.2.2.symm⟩
  case meas | measRaw => exact ⟨_, s.substep, s.arg, rfl, h.2.symm⟩
  case beginSeq => exact ⟨_, .identify, s.arg, rfl, h.symm⟩
  case ident | feat | init => exact ⟨_, s.substep, s.arg, rfl, h.symm⟩

/-- R177, R208: an operand above the range is latched and answered at once. -/
theorem exec_setHum_outOfRange {arg : Nat} (hb : s.busy = false)
    (hr : humInRange (argBits Config.sg33 arg) = false) :
    exec (.setHum arg) s =
      .next ((s.latchArg (argBits Config.sg33 arg)).reply (failResponse .inputRange)) := by
  simp [exec, execSetHum, setHumIn, hb, hr]

/-- A host operation in an idle engine either starts its transaction and runs it, or is answered at once, and then only
`CACC` and `ARG` can change (R91, R119, R171 to R178, R208). -/
theorem exec_host_idle_cases (hi : i.hostSelectable = true) (hb : s.busy = false)
    (h : exec i s = .next t) :
    (∃ u, accepted Config.sg33 s i = some u ∧ t = settleDown Config.sg33 u) ∨
      ∃ b a q, t = ({ s with cacc := b, arg := a } : State).reply q := by
  cases i <;> simp only [Instr.hostSelectable, Bool.false_eq_true] at hi
  case setHum a =>
    cases hr : humInRange (argBits Config.sg33 a) with
    | true =>
      cases (exec_setHum_idle hb hr).symm.trans h
      exact .inl ⟨_, if_pos hr, rfl⟩
    | false =>
      cases (exec_setHum_outOfRange hb hr).symm.trans h
      exact .inr ⟨s.cacc, argBits Config.sg33 a, _, rfl⟩
  case meas =>
    cases (exec_meas_idle hb).symm.trans h
    exact .inl ⟨_, rfl, rfl⟩
  case measRaw =>
    cases (exec_measRaw_idle hb).symm.trans h
    exact .inl ⟨_, rfl, rfl⟩
  all_goals cases (whenIdle_idle hb).symm.trans h
  case ident | feat | init | beginSeq => exact .inl ⟨_, rfl, rfl⟩
  case crcClr => exact .inr ⟨Config.sg33.init, s.arg, _, rfl⟩
  case crcUpd a =>
    exact .inr ⟨crcByte Config.sg33.poly s.cacc (argByte Config.sg33 a), s.arg, _, rfl⟩
  all_goals exact .inr ⟨s.cacc, s.arg, _, rfl⟩

/-- What a step without reset does: it goes on with the operation in progress, rests, or runs the next request (R32,
R230, R236). -/
theorem step_cases (h0 : s.rst = none) (h : step s = .next t) :
    (s.busy = true ∧ t = settleDown Config.sg33 s) ∨ (s.busy = false ∧ s.reqs = [] ∧ t = s) ∨
      ∃ q qs, s.busy = false ∧ s.reqs = q :: qs ∧
        exec (decodeRequest q) { s with reqs := qs } = .next t := by
  simp only [step, stepWith, h0] at h
  split at h
  · cases h
  cases hb : s.busy with
  | true => exact .inl ⟨rfl, by simpa [hb] using h.symm⟩
  | false =>
    cases hq : s.reqs with
    | nil => exact .inr (.inl ⟨rfl, rfl, by simpa [hb, hq] using h.symm⟩)
    | cons q qs => exact .inr (.inr ⟨q, qs, rfl, rfl, by simpa [hb, fetch_of_cons hq] using h⟩)

/-- What the handling of a result does (R157, R171 to R178): it stores a pair, ends the operation otherwise, `READY`
changed by `BEGIN` alone, or goes on to the next substep of `BEGIN`. -/
theorem finish_cases (c : Config) (s : State) (j : Job) (r : XactResult) :
    (∃ words, j = .meas ∧ r = .ok words ∧
        s.finish c j r = (s.storeMeas words).complete (okResponse words)) ∨
      (∃ words, j = .measRaw ∧ r = .ok words ∧
        s.finish c j r = (s.storeRaw words).complete (okResponse words)) ∨
      (∃ b q, (b = s.ready ∨ (j = .beginSeq ∧ b = q.ok)) ∧
        s.finish c j r = ({ s with ready := b } : State).complete q) ∨
      ∃ v, j = .beginSeq ∧ s.finish c j r = s.nextSubstep v := by
  cases r with
  | fail k =>
    rw [finish_fail]
    split
    · next hj => exact .inr (.inr (.inl ⟨false, _, .inr ⟨hj, rfl⟩, rfl⟩))
    · exact .inr (.inr (.inl ⟨s.ready, _, .inl rfl, rfl⟩))
  | ok words =>
    cases j
    case meas => exact .inl ⟨words, rfl, rfl, rfl⟩
    case measRaw => exact .inr (.inl ⟨words, rfl, rfl, rfl⟩)
    case feat =>
      simp only [State.finish]
      split <;> exact .inr (.inr (.inl ⟨s.ready, _, .inl rfl, rfl⟩))
    case beginSeq =>
      simp only [State.finish, State.finishBegin]
      split
      · exact .inr (.inr (.inr ⟨.readFeatures, trivial, rfl⟩))
      · split
        · exact .inr (.inr (.inr ⟨.initMeas, trivial, rfl⟩))
        · exact .inr (.inr (.inl ⟨false, _, .inr ⟨trivial, rfl⟩, rfl⟩))
      · exact .inr (.inr (.inl ⟨true, _, .inr ⟨trivial, rfl⟩, rfl⟩))
    all_goals exact .inr (.inr (.inl ⟨s.ready, _, .inl rfl, rfl⟩))

/-- The operation j is in progress in t, reached from s: the result registers are those of s, and the frame in `RXBUF`
and the words of the result come from a read answer of s. -/
structure InProgressFrom (c : Config) (s : State) (j : Job) (t : State) : Prop where
  /-- R22: only the end of an operation writes a result register. -/
  results : SameResults s t
  job : t.job = some j
  /-- R52: answers are taken in order, and none is made up. -/
  answers : t.readAnswers ⊆ s.readAnswers
  /-- R155: the frame to verify is the answer to the read. -/
  received : t.phase = .verify → some t.rxbuf ∈ s.readAnswers
  /-- R134, R156: the words of a transaction with reply words are those of a verified frame. -/
  verified : ∀ words, t.pending = some (.ok words) → 1 ≤ (j.xact t.substep t.arg).words →
    ∃ bytes, some bytes ∈ s.readAnswers ∧
      frameVal c (j.xact t.substep t.arg).words bytes = .ok words

/-- R174, R175: t is where `MEAS` or `MEASRAW` has ended with success, its pair stored from a verified frame that was a
read answer of s. -/
def PairStored (c : Config) (s : State) (j : Job) (t : State) : Prop :=
  ∃ w0 w1 bytes, some bytes ∈ s.readAnswers ∧ frameVal c 2 bytes = .ok [w0, w1] ∧
    t.out.getLast? = some (.response ⟨true, .none, [w0, w1]⟩) ∧ t.busy = false ∧
    ((j = .meas ∧ t.eco2 = w0 ∧ t.tvoc = w1 ∧ t.rawH2 = s.rawH2 ∧ t.rawEth = s.rawEth) ∨
      (j = .measRaw ∧ t.rawH2 = w0 ∧ t.rawEth = w1 ∧ t.eco2 = s.eco2 ∧ t.tvoc = s.tvoc))

/-- The invariant of the run of j from s: j is in progress, or it has ended with the registers left or its pair
stored. -/
def ResultsAtomic (c : Config) (s : State) (j : Job) (t : State) : Prop :=
  InProgressFrom c s j t ∨ (t.phase = .idle ∧ (SameResults s t ∨ PairStored c s j t))

/-- An operation that is starting, or waits, is in progress from its own state. -/
theorem InProgressFrom.of_no_result (hr : SameResults s t) (hj : t.job = some j)
    (ha : t.readAnswers = s.readAnswers) (hv : t.phase ≠ .verify) (hp : t.pending = none) :
    InProgressFrom c s j t :=
  ⟨hr, hj, ha ▸ List.Subset.refl _, fun h => absurd h hv, by simp [hp]⟩

/-- The two words of a transaction with two reply words, and the frame they come from. -/
theorem InProgressFrom.verified_pair {words : List Word} (h : InProgressFrom c s j t)
    (hp : t.pending = some (.ok words)) (hx : (j.xact t.substep t.arg).words = 2) :
    ∃ w0 w1 bytes, words = [w0, w1] ∧ some bytes ∈ s.readAnswers ∧
      frameVal c 2 bytes = .ok [w0, w1] := by
  obtain ⟨bytes, hm, hv⟩ := h.verified words hp (by omega)
  rw [hx] at hv
  obtain ⟨w0, w1, rfl⟩ := List.length_eq_two.mp (frameVal_length hv)
  exact ⟨w0, w1, bytes, rfl, hm, hv⟩

/-- The handling of a result stores a verified pair or leaves the result registers. -/
theorem InProgressFrom.finish_atomic (h : InProgressFrom c s j t) (hp : t.pending = some r) :
    ResultsAtomic c s j (t.finish c j r) := by
  obtain ⟨he, ht, hh, hm⟩ := h.results
  obtain ⟨words, rfl, rfl, hf⟩ | ⟨words, rfl, rfl, hf⟩ | ⟨b, q, -, hf⟩ | ⟨v, rfl, hf⟩ :=
    finish_cases c t j r
  · obtain ⟨w0, w1, bytes, rfl, hb, hv⟩ := h.verified_pair hp rfl
    rw [hf]
    exact .inr ⟨rfl, .inr ⟨w0, w1, bytes, hb, hv, by simp [okResponse], rfl,
      .inl ⟨rfl, rfl, rfl, hh, hm⟩⟩⟩
  · obtain ⟨w0, w1, bytes, rfl, hb, hv⟩ := h.verified_pair hp rfl
    rw [hf]
    exact .inr ⟨rfl, .inr ⟨w0, w1, bytes, hb, hv, by simp [okResponse], rfl,
      .inr ⟨rfl, rfl, rfl, he, ht⟩⟩⟩
  · rw [hf]
    exact .inr ⟨rfl, .inl h.results⟩
  · rw [hf]
    exact .inl ⟨h.results, h.job, h.answers, by simp, by simp⟩

/-- Every transition of an operation in progress keeps the invariant (R157). -/
theorem InProgressFrom.advance_atomic (h : InProgressFrom c s j t) (ha : advance c t = some u) :
    ResultsAtomic c s j u := by
  obtain ⟨j', hj', hcase⟩ := advance_cases ha
  obtain rfl : j' = j := Option.some.inj (hj'.symm.trans h.job)
  obtain ⟨-, rfl⟩ | ⟨-, hw⟩ | ⟨-, hs⟩ | ⟨-, hr⟩ | ⟨hp, rfl⟩ | ⟨-, r, hr, rfl⟩ := hcase
  · exact .inl ⟨h.results, h.job, h.answers, by simp, h.verified⟩
  · obtain ⟨ws, ⟨-, rfl⟩ | ⟨-, rfl⟩⟩ := awaitWrite_cases hw
    · exact .inl ⟨h.results, h.job, h.answers, by simp, h.verified⟩
    · exact .inl ⟨h.results, h.job, h.answers, by simp, by simp⟩
  · obtain ⟨n, -, ⟨h0, rfl⟩ | ⟨-, rfl⟩⟩ := awaitSleep_cases hs
    · exact .inl ⟨h.results, h.job, h.answers, by simp, fun _ _ h1 => absurd h0 (Nat.ne_of_gt h1)⟩
    · exact .inl ⟨h.results, h.job, h.answers, by simp, h.verified⟩
  · obtain ⟨a, rs, hq, hread⟩ := awaitRead_cases hr
    obtain ⟨hm, hrest⟩ := List.cons_subset.mp (hq ▸ h.answers)
    obtain ⟨bytes, rfl, -, rfl⟩ | ⟨-, rfl⟩ := hread
    · exact .inl ⟨h.results, h.job, hrest, fun _ => hm, h.verified⟩
    · exact .inl ⟨h.results, h.job, hrest, by simp, by simp⟩
  · obtain ⟨words, hv, he⟩ | ⟨k, -, he⟩ := verify_cases c t (j'.xact t.substep t.arg)
    · rw [he]
      refine .inl ⟨h.results, h.job, h.answers, by simp, fun _ hw _ => ?_⟩
      cases hw
      exact ⟨t.rxbuf, h.received hp, hv⟩
    · rw [he]
      exact .inl ⟨h.results, h.job, h.answers, by simp, by simp⟩
  · exact h.finish_atomic hr

/-- R22: an operation in progress leaves the result registers or stores a verified pair. -/
theorem InProgressFrom.settleDown_results (h : InProgressFrom c s j t) :
    SameResults s (settleDown c t) ∨ PairStored c s j (settleDown c t) := by
  have hrun : ResultsAtomic c s j (run c runFuel t) := by
    refine run_preserves (fun v v' hv ha => ?_) _ _ (.inl h)
    obtain hv | ⟨hidle, -⟩ := hv
    · exact hv.advance_atomic ha
    · rw [advance_idle hidle] at ha
      cases ha
  obtain hrun | ⟨-, hrun⟩ := hrun
  · exact .inl hrun.results
  · exact hrun

/-- R26, R157: a state between two steps holds no result and no frame to verify. -/
theorem State.Inv.inProgressFrom_self (h : s.Inv c) (hj : s.job = some j) :
    InProgressFrom c s j s := by
  obtain ⟨-, -, hpend⟩ := sequencerOk_iff.mp h.sequencer
  have hphase : s.phase ≠ .verify ∧ s.phase ≠ .respond := by
    obtain hp | hp | hp | hp := h.waiting <;> simp [hp]
  exact .of_no_result ⟨rfl, rfl, rfl, rfl⟩ hj rfl hphase.1
    (Option.not_isSome_iff_eq_none.mp (mt hpend.mp hphase.2))

/-- R22 of one step: the result registers stay, or the operation the step works on has stored its pair. -/
theorem step_results (hinv : s.Inv Config.sg33) (h0 : s.rst = none) (h : step s = .next t) :
    SameResults s t ∨ ∃ j, s.worksOn j ∧ PairStored Config.sg33 s j t := by
  obtain ⟨hb, rfl⟩ | ⟨-, -, rfl⟩ | ⟨q, qs, hb, hq, he⟩ := step_cases h0 h
  · obtain ⟨-, hjob, -⟩ := sequencerOk_iff.mp hinv.sequencer
    obtain ⟨j, hj⟩ := Option.isSome_iff_exists.mp (hjob.trans hb)
    exact (hinv.inProgressFrom_self hj).settleDown_results.imp_right fun hs =>
      ⟨j, .inl ⟨hb, hj⟩, hs⟩
  · exact .inl ⟨rfl, rfl, rfl, rfl⟩
  · obtain ⟨u, hu, rfl⟩ | ⟨b, a, k, rfl⟩ :=
      exec_host_idle_cases (s := { s with reqs := qs }) (decodeRequest_selectable q) hb he
    · obtain ⟨j, v, a, hj, rfl⟩ := accepted_eq_start hu
      have hstart : InProgressFrom Config.sg33 s j
          (State.start { s with reqs := qs, substep := v, arg := a } j) :=
        .of_no_result ⟨rfl, rfl, rfl, rfl⟩ rfl rfl (by simp [State.start]) rfl
      exact hstart.settleDown_results.imp_right fun hs => ⟨j, .inr ⟨hb, q, qs, hq, hj⟩, hs⟩
    · exact .inl ⟨rfl, rfl, rfl, rfl⟩

end ResultPairs

/-- Settles O53: a run keeps `ResultsAtomic`, so that a step that changes a result register has ended `MEAS` or
`MEASRAW` and stored both words of a verified frame. -/
theorem resultPairsChangeTogetherAndOnlyOnSuccess :
    Obligations.ResultPairsChangeTogetherAndOnlyOnSuccess := by
  intro s t hinv h0 h
  refine (step_results hinv h0 h).imp_right ?_
  rintro ⟨j, hw, w0, w1, bytes, hm, hv, hout, hidle, hpair⟩
  refine ⟨w0, w1, bytes, hm, hv, hout, hidle, ?_⟩
  exact hpair.imp (fun ⟨hj, hres⟩ => ⟨hj ▸ hw, hres⟩) fun ⟨hj, hres⟩ => ⟨hj ▸ hw, hres⟩

end Sys2Proof.Machine
end

section
/-! PROOFS. The three grains of the checksum engine: the bit step, the byte step and the byte sequence (R111 to
R113). -/

namespace Sys2Proof.Machine

/-- R111: the bit step with the test on bit 7 apart from the shift; the polynomial enters only through the test. -/
theorem crcBit_eq_append_xor (poly a : Byte) :
    crcBit poly a = (a.extractLsb' 0 7 ++ 0#1) ^^^ (if a.getLsbD 7 then poly else 0#8) := by
  have hshift : a <<< 1 = a.extractLsb' 0 7 ++ 0#1 :=
    BitVec.shiftLeft_eq_concat_of_lt (by decide)
  have hbit : a.msb = a.getLsbD 7 := BitVec.msb_eq_getLsbD_last a
  rw [crcBit, hshift, hbit]
  split
  · rfl
  · exact BitVec.xor_zero.symm

/-- R111: the bit shifted out of position 7 is dropped, so that the polynomial alone is left. -/
@[simp] theorem crcBit_highBit (poly : Byte) : crcBit poly 0x80#8 = poly := by
  have hshift : 0x80#8 <<< 1 = 0#8 := by decide
  have hmsb : (0x80#8).msb = true := by decide
  simp [crcBit, hshift, hmsb]

/-- R111: below 0x80 bit 7 is 0, and the shift loses nothing. -/
theorem crcBit_toNat_of_lt (poly : Byte) {a : Byte} (h : a < 0x80#8) :
    (crcBit poly a).toNat = 2 * a.toNat := by
  have hlt : a.toNat < 128 := BitVec.lt_def.mp h
  have hmsb : a.msb = false := BitVec.msb_eq_false_iff_two_mul_lt.mpr (by omega)
  rw [crcBit, hmsb, if_neg Bool.false_ne_true, BitVec.toNat_shiftLeft, Nat.shiftLeft_eq]
  omega

/-- R112: accumulator and byte enter the byte step through their XOR alone. -/
theorem crcByte_congr_xor (poly : Byte) {a b a' b' : Byte} (h : a ^^^ b = a' ^^^ b') :
    crcByte poly a b = crcByte poly a' b' :=
  congrArg (crcBits poly 8) h

/-- R113: the checksum of a longer sequence goes on from the checksum of its beginning. -/
theorem crc8_append (c : Config) (d e : List Byte) :
    crc8 c (d ++ e) = crcFrom c.poly (crc8 c d) e :=
  crcFrom_append c.poly c.init d e

/-- Settles O16: the shift is the low seven bits and a 0 (`crcBit_eq_append_xor`), and the corner cases follow from
bit 7 of the value. -/
theorem bitStepShiftsAndXorsThePolynomial : Obligations.BitStepShiftsAndXorsThePolynomial :=
  ⟨crcBit_eq_append_xor, fun poly => ⟨crcBit_zero poly, crcBit_highBit poly⟩,
    fun poly _ h => crcBit_toNat_of_lt poly h⟩

/-- Settles O17: the eight bit steps are the recursion of `crcBits` written out, and they start from the XOR, which is
0 for equal bytes. -/
theorem byteStepXorsThenShiftsEightTimes : Obligations.ByteStepXorsThenShiftsEightTimes :=
  ⟨fun _ _ _ => rfl, crcByte_self, fun poly _ _ _ _ h => crcByte_congr_xor poly h⟩

/-- Settles O18: appending one byte is going on from the checksum so far (`crc8_append`). -/
theorem checksumAbsorbsBytesInOrder : Obligations.ChecksumAbsorbsBytesInOrder :=
  ⟨crc8_nil, fun c d b => crc8_append c d [b]⟩

end Sys2Proof.Machine
end

section
/-! PROOFS. The framing operations as functions: the group encoder (R130). -/

namespace Sys2Proof.Machine

/-- R130: the data of a word is big-endian, its byte 15:8 before its byte 7:0. -/
theorem wordBytes_eq_extractLsb' (w : Word) :
    wordBytes w = [w.extractLsb' 8 8, w.extractLsb' 0 8] := rfl

/-- Settles O26: the group is the bytes of the word followed by the checksum of those bytes, and the bytes are the two
slices of the word, the upper first (`wordBytes_eq_extractLsb'`). -/
theorem groupEncoderAppendsTheChecksum : Obligations.GroupEncoderAppendsTheChecksum := by
  intro c p
  rw [groupEnc, wordBytes_eq_extractLsb', List.cons_append, List.cons_append, List.nil_append]

end Sys2Proof.Machine
end

section
/-! PROOFS. The requests of one `EXECUTE`, counted through its phases (R151 to R157): one write, at most one sleep and
at most one read (R158). -/

namespace Sys2Proof.Machine

section Requests

variable {c : Config} {s s' : State} {j : Job}

/-- A bound on the transitions of one transaction from this phase to its end (R157). -/
def Phase.transitionsLeft : Phase → Nat
  | .idle => 0
  | .respond => 1
  | .verify => 2
  | .read => 3
  | .settle => 4
  | .write => 5
  | .assemble => 6

/-- The requests the transaction in progress makes with the answers that are there (R158). -/
def State.requestsDue (c : Config) (s : State) : List Event :=
  match s.job with
  | none => []
  | some j =>
    let x := j.xact s.substep s.arg
    match s.phase with
    | .assemble => .write c.busAddr (cmdAsm c x.code x.payload) :: requestsAfterWrite c x s
    | .write => requestsAfterWrite c x s
    | .settle => requestsAfterSleep c x s
    | .idle | .read | .verify | .respond => []

theorem requestsDue_of_no_job (hj : s.job = none) : s.requestsDue c = [] := by
  simp [State.requestsDue, hj]

theorem requestsDue_assemble (hj : s.job = some j) (hp : s.phase = .assemble) :
    s.requestsDue c =
      .write c.busAddr (cmdAsm c (j.xact s.substep s.arg).code (j.xact s.substep s.arg).payload) ::
        requestsAfterWrite c (j.xact s.substep s.arg) s := by
  simp [State.requestsDue, hj, hp]

theorem requestsDue_write (hj : s.job = some j) (hp : s.phase = .write) :
    s.requestsDue c = requestsAfterWrite c (j.xact s.substep s.arg) s := by
  simp [State.requestsDue, hj, hp]

theorem requestsDue_settle (hj : s.job = some j) (hp : s.phase = .settle) :
    s.requestsDue c = requestsAfterSleep c (j.xact s.substep s.arg) s := by
  simp [State.requestsDue, hj, hp]

/-- R158: nothing comes after the read, and nothing after the end. -/
theorem requestsDue_of_transitionsLeft_le (hp : s.phase.transitionsLeft ≤ 3) :
    s.requestsDue c = [] := by
  unfold State.requestsDue
  cases s.job with
  | none => rfl
  | some j =>
    cases hph : s.phase with
    | idle | respond | verify | read => rfl
    | settle | write | assemble => simp [hph, Phase.transitionsLeft] at hp

/-- Only the answers to the write and to the sleep decide what comes after the write. -/
theorem requestsAfterWrite_congr (c : Config) (x : Xact) (hw : s'.writeAnswers = s.writeAnswers)
    (hn : s'.wakeups = s.wakeups) : requestsAfterWrite c x s' = requestsAfterWrite c x s := by
  simp only [requestsAfterWrite, requestsAfterSleep, hw, hn]

/-- R219: the trace port makes no request. -/
theorem traceEvents_no_request (c : Config) (l : List Check) :
    (traceEvents c l).filter Event.isRequest = [] := by
  unfold traceEvents
  split
  · simp [Event.isRequest]
  · rfl

/-- The handling of a result ends every operation but `BEGIN`, with its response as the one event (R157). -/
theorem finish_of_ne_beginSeq (c : Config) (s : State) (r : XactResult) (hne : j ≠ .beginSeq) :
    ∃ q, (s.finish c j r).job = none ∧ (s.finish c j r).phase = .idle ∧
      (s.finish c j r).out = s.out ++ [.response q] := by
  obtain ⟨words, -, -, hf⟩ | ⟨words, -, -, hf⟩ | ⟨b, q, -, hf⟩ | ⟨v, hj, -⟩ :=
    finish_cases c s j r
  · exact ⟨okResponse words, by simp [hf]⟩
  · exact ⟨okResponse words, by simp [hf]⟩
  · exact ⟨q, by simp [hf]⟩
  · exact absurd hj hne

/-- The transition from s to s' brings the transaction nearer to its end and makes the first of the requests due. -/
structure RequestStep (c : Config) (s s' : State) : Prop where
  notBegin : s'.job ≠ some .beginSeq
  nearer : s'.phase.transitionsLeft < s.phase.transitionsLeft
  requests : ∃ new, s'.out = s.out ++ new ∧
    new.filter Event.isRequest ++ s'.requestsDue c = s.requestsDue c

/-- A transition after which nothing is due, and which makes the requests that were due before it. -/
theorem RequestStep.of_last {new : List Event} (hne : s'.job ≠ some .beginSeq)
    (hlt : s'.phase.transitionsLeft < s.phase.transitionsLeft)
    (hle : s'.phase.transitionsLeft ≤ 3) (hout : s'.out = s.out ++ new)
    (hnew : new.filter Event.isRequest = s.requestsDue c) : RequestStep c s s' :=
  ⟨hne, hlt, new, hout, by rw [hnew, requestsDue_of_transitionsLeft_le hle, List.append_nil]⟩

/-- R151: the write is requested in any case. -/
theorem assemble_requestStep (hj : s.job = some j) (hne : s.job ≠ some .beginSeq)
    (hp : s.phase = .assemble) : RequestStep c s (s.assemble c (j.xact s.substep s.arg)) := by
  refine ⟨hne, by simp [hp, Phase.transitionsLeft], _, State.assemble_out s c _, ?_⟩
  rw [requestsDue_assemble hj hp,
    requestsDue_write ((State.assemble_job s c _).trans hj) (State.assemble_phase s c _)]
  rfl

/-- R152: the sleep is requested if the write is answered `ok`, and nothing is due after another answer. -/
theorem awaitWrite_requestStep (hj : s.job = some j) (hne : s.job ≠ some .beginSeq)
    (hp : s.phase = .write) (h : s.awaitWrite (j.xact s.substep s.arg) = some s') :
    RequestStep c s s' := by
  have hdue : s.requestsDue c = _ := requestsDue_write hj hp
  obtain ⟨ws, ⟨hw, hs'⟩ | ⟨hw, rfl⟩⟩ := awaitWrite_cases h
  · have hnext : s'.requestsDue c = _ := requestsDue_settle (by rw [hs', hj]) (by rw [hs'])
    refine ⟨by rwa [hs'], by simp [hs', hp, Phase.transitionsLeft], _, by rw [hs'], ?_⟩
    rw [hdue, hnext, requestsAfterWrite, hw, hs']
    rfl
  · exact .of_last (new := []) hne (by simp [hp, Phase.transitionsLeft])
      (by simp [Phase.transitionsLeft]) (by simp) (by simp [hdue, requestsAfterWrite, hw])

/-- R153 to R155: the read is requested once the sleep is answered and there are reply words. -/
theorem awaitSleep_requestStep (hj : s.job = some j) (hne : s.job ≠ some .beginSeq)
    (hp : s.phase = .settle) (h : s.awaitSleep c (j.xact s.substep s.arg) = some s') :
    RequestStep c s s' := by
  have hdue : s.requestsDue c = _ := requestsDue_settle hj hp
  obtain ⟨n, hn, ⟨hx, rfl⟩ | ⟨hx, rfl⟩⟩ := awaitSleep_cases h
  · exact .of_last (new := []) hne (by simp [hp, Phase.transitionsLeft])
      (by simp [Phase.transitionsLeft]) (by simp) (by simp [hdue, requestsAfterSleep, hx])
  · refine .of_last hne (by simp [hp, Phase.transitionsLeft]) (by simp [Phase.transitionsLeft])
      rfl ?_
    rw [hdue, requestsAfterSleep, if_pos ⟨by omega, Nat.pos_of_ne_zero hx⟩]
    rfl

/-- Every transition of an operation other than `BEGIN` makes its own requests and leaves the rest due (R151 to
R157). -/
theorem advance_requestStep (hne : s.job ≠ some .beginSeq) (h : advance c s = some s') :
    RequestStep c s s' := by
  obtain ⟨j, hj, hcase⟩ := advance_cases h
  have hdue (hp : s.phase.transitionsLeft ≤ 3) : [] = s.requestsDue c :=
    (requestsDue_of_transitionsLeft_le hp).symm
  obtain ⟨hp, rfl⟩ | ⟨hp, hw⟩ | ⟨hp, hs⟩ | ⟨hp, hr⟩ | ⟨hp, rfl⟩ | ⟨hp, r, -, rfl⟩ := hcase
  · exact assemble_requestStep hj hne hp
  · exact awaitWrite_requestStep hj hne hp hw
  · exact awaitSleep_requestStep hj hne hp hs
  all_goals replace hdue := hdue (by simp [hp, Phase.transitionsLeft])
  · obtain ⟨a, rs, -, ⟨bytes, -, -, rfl⟩ | ⟨-, rfl⟩⟩ := awaitRead_cases hr
    all_goals
      exact .of_last (new := []) hne (by simp [hp, Phase.transitionsLeft])
        (by simp [Phase.transitionsLeft]) (by simp) hdue
  · obtain ⟨words, -, he⟩ | ⟨k, -, he⟩ := verify_cases c s (j.xact s.substep s.arg)
    all_goals
      rw [he]
      exact .of_last hne (by simp [hp, Phase.transitionsLeft]) (by simp [Phase.transitionsLeft])
        (State.checked_out s c _) ((traceEvents_no_request c _).trans hdue)
  · obtain ⟨q, hjob, hphase, hout⟩ := finish_of_ne_beginSeq c s r (fun he => hne (he ▸ hj))
    exact .of_last (by simp [hjob]) (by simp [hp, hphase, Phase.transitionsLeft])
      (by simp [hphase, Phase.transitionsLeft]) hout hdue

/-- Where no transition is enabled, no request is due (R55, R157). -/
theorem requestsDue_of_advance_eq_none (h : advance c s = none) : s.requestsDue c = [] := by
  cases hj : s.job with
  | none => exact requestsDue_of_no_job hj
  | some j =>
    cases hp : s.phase with
    | assemble => cases (advance_assemble hj hp).symm.trans h
    | write =>
      rw [advance_write hj hp, State.awaitWrite] at h
      cases hw : s.writeAnswers with
      | nil => simp [requestsDue_write hj hp, requestsAfterWrite, hw]
      | cons b ws => cases b <;> simp [hw] at h
    | settle =>
      rw [advance_settle hj hp, State.awaitSleep] at h
      cases hn : s.wakeups with
      | zero => simp [requestsDue_settle hj hp, requestsAfterSleep, hn]
      | succ n => by_cases hx : (j.xact s.substep s.arg).words = 0 <;> simp [hn, hx] at h
    | idle | read | verify | respond =>
      exact requestsDue_of_transitionsLeft_le (by simp [hp, Phase.transitionsLeft])

/-- R158: a run with enough transitions makes exactly the requests due. -/
theorem run_requests {n : Nat} (hne : s.job ≠ some .beginSeq) (hn : s.phase.transitionsLeft ≤ n) :
    ∃ new, (run c n s).out = s.out ++ new ∧ new.filter Event.isRequest = s.requestsDue c := by
  induction n generalizing s with
  | zero => exact ⟨[], by simp, (requestsDue_of_transitionsLeft_le (by omega)).symm⟩
  | succ n ih =>
    cases ha : advance c s with
    | none => exact ⟨[], by simp [run_of_none ha], (requestsDue_of_advance_eq_none ha).symm⟩
    | some s' =>
      obtain ⟨hne', hlt, new, hout, hreq⟩ := advance_requestStep hne ha
      obtain ⟨rest, hrun, hrest⟩ := ih hne' (by omega)
      refine ⟨new ++ rest, ?_, ?_⟩
      · rw [run_of_some ha, hrun, hout, List.append_assoc]
      · rw [List.filter_append, hrest, hreq]

/-- R158: the engine makes exactly the requests due before it is idle or waits. -/
theorem settleDown_requests (hne : s.job ≠ some .beginSeq) :
    ∃ new, (settleDown c s).out = s.out ++ new ∧ new.filter Event.isRequest = s.requestsDue c := by
  refine run_requests hne ?_
  cases s.phase <;> decide

end Requests

/-- Settles O39: each transition makes the first of the requests due and leaves the rest due (`advance_requestStep`), so
that a step, which runs until nothing is due, makes exactly those due in the phase it starts from. -/
theorem executeWritesOnceAndReadsAtMostOnce : Obligations.ExecuteWritesOnceAndReadsAtMostOnce := by
  refine ⟨fun i x s hx hi hb => ?_, fun j s hinv h0 hj hne => ?_⟩
  · obtain ⟨j, u, he, rfl, hu, hbegin, -⟩ := exec_of_firstXact hx hb
    have hne : j ≠ .beginSeq := mt hbegin.mpr hi
    obtain ⟨new, hout, hreq⟩ := settleDown_requests (c := Config.sg33) (s := u.start j) (by simpa)
    rw [requestsDue_assemble (State.start_job u j) (State.start_phase u j)] at hreq
    refine ⟨_, new, he, by rw [← hu.out]; exact hout, hreq.trans ?_⟩
    congr 1
    exact requestsAfterWrite_congr _ _ hu.writeAnswers hu.wakeups
  · obtain ⟨-, hjob, -⟩ := sequencerOk_iff.mp hinv.sequencer
    have hbusy : s.busy = true := by simpa [hj] using hjob.symm
    obtain ⟨new, hout, hreq⟩ := settleDown_requests (c := Config.sg33) (s := s) (by simpa [hj])
    exact ⟨_, new, step_of_busy h0 hinv.sequencer hbusy, hout,
      fun hp => hreq.trans (requestsDue_write hj hp),
      fun hp => hreq.trans (requestsDue_settle hj hp),
      fun hp => hreq.trans (requestsDue_of_transitionsLeft_le (by simp [hp, Phase.transitionsLeft]))⟩

end Sys2Proof.Machine
end

section
/-! PROOFS. The humidity scaler is the exact floor of R176, and it reaches every 16-bit value (R91). -/

namespace Sys2Proof.Machine

/-- R176: for an accepted operand neither the 64-bit product nor the 16-bit result is cut off. -/
theorem humScale_toNat {v : Nat} (hv : v ≤ 256000) :
    (humScale v).toNat = v * 256 * 16777 / 2 ^ 24 := by
  have hproduct : (4294912#64 * BitVec.ofNat 64 v).toNat = 4294912 * v := by
    rw [BitVec.toNat_mul, BitVec.toNat_ofNat, BitVec.toNat_ofNat]
    omega
  have hconstant : v * 256 * 16777 = 4294912 * v := by omega
  rw [humScale, BitVec.toNat_setWidth, BitVec.toNat_ushiftRight, hproduct, hconstant,
    Nat.shiftRight_eq_div_pow]
  omega

/-- The least operand of each 16-bit value is in range, since 256000 itself is scaled to 65535 (R91, R176). -/
theorem humArg_le (p : Word) : humArg p ≤ 256000 := by
  have hp := p.isLt
  rw [humArg]
  omega

/-- A step of one in the operand adds less than one before the floor, so that no value is passed over (R91, R176). -/
theorem humScale_humArg (p : Word) : humScale (humArg p) = p := by
  apply BitVec.eq_of_toNat_eq
  rw [humScale_toNat (humArg_le p), humArg]
  omega

/-- Settles O46: the product fits in 64 bits and the quotient in 16 (`humScale_toNat`), a floor is monotone, and
`humArg` gives an operand in range for each value (`humArg_le`, `humScale_humArg`). -/
theorem humidityScalerIsTheExactFloor : Obligations.HumidityScalerIsTheExactFloor := by
  refine ⟨fun v hv => humScale_toNat hv, fun v v' hle hv' => ?_,
    fun p => ⟨(humInRange_iff _).mpr (humArg_le p), humScale_humArg p⟩⟩
  rw [BitVec.le_def, humScale_toNat (hle.trans hv'), humScale_toNat hv']
  gcongr

end Sys2Proof.Machine
end

section
/-! PROOFS. How a transaction fails (R206): at a failed write (R203) and at a corrupt word (R205). -/

namespace Sys2Proof.Machine

section Failures

variable {c : Config} {s t u : State} {j : Job} {k : Cause} {events : List Event}

theorem SameArch.refl (s : State) : SameArch s s := ⟨⟨rfl, rfl, rfl, rfl⟩, rfl, rfl⟩

theorem SameArch.trans (h : SameArch s t) (h' : SameArch t u) : SameArch s u := by
  obtain ⟨⟨he, ht, hh, hm⟩, hr, hc⟩ := h
  obtain ⟨⟨he', ht', hh', hm'⟩, hr', hc'⟩ := h'
  exact ⟨⟨he'.trans he, ht'.trans ht, hh'.trans hh, hm'.trans hm⟩, hr'.trans hr, hc'.trans hc⟩

theorem SameStart.sameArch (h : SameStart s u) : SameArch s u := ⟨h.results, h.ready, h.cacc⟩

/-- R206, R211: the handling of a failed transaction ends the operation with the cause, nothing stored. -/
theorem finish_fail_failsWith (c : Config) (harch : SameArch s u) (hout : u.out = s.out ++ events) :
    FailsWith (.next (u.finish c j (.fail k))) s (j = .beginSeq) events k
      u.writeAnswers u.wakeups u.readAnswers := by
  obtain ⟨hres, hready, hcacc⟩ := harch
  rw [finish_fail, FailsWith, ← hout]
  split
  · next hj =>
    exact ⟨_, rfl, hres, hcacc, fun _ => rfl, absurd hj, rfl, rfl, rfl, rfl, rfl, rfl⟩
  · next hj =>
    exact ⟨_, rfl, hres, hcacc, fun h => absurd h hj, fun _ => hready, rfl, rfl, rfl, rfl, rfl, rfl⟩

/-- R157: a run from `RESPOND` with a failure ends the operation with it. -/
theorem run_respond_failsWith {n : Nat} (hj : u.job = some j) (hp : u.phase = .respond)
    (hr : u.pending = some (.fail k)) (harch : SameArch s u) (hout : u.out = s.out ++ events) :
    FailsWith (.next (run c (n + 1) u)) s (j = .beginSeq) events k
      u.writeAnswers u.wakeups u.readAnswers := by
  rw [run_respond_fail hj hp hr, ← finish_fail c]
  exact finish_fail_failsWith c harch hout

/-- R152, R203: a failed write answer goes to `RESPOND` at once, whichever operation and substep waits for it. -/
theorem run_write_failsWith {n : Nat} {ws : List Bool} (hj : u.job = some j)
    (hp : u.phase = .write) (hw : u.writeAnswers = false :: ws) (harch : SameArch s u)
    (hout : u.out = s.out ++ events) :
    FailsWith (.next (run c (n + 2) u)) s (j = .beginSeq) events .transportWrite
      ws u.wakeups u.readAnswers := by
  rw [run_of_some (advance_write_fail hj hp hw)]
  exact run_respond_failsWith (u := State.raise { u with writeAnswers := ws } .transportWrite)
    hj rfl rfl harch hout

/-- R156, R205: a frame with a corrupt word is rejected as a whole. -/
theorem verify_corrupt {x : Xact} {m : Nat} (h : frameVal c x.words s.rxbuf = .corrupt m) :
    s.verify c x = (s.checked c (frameChecks c x.words 0 s.rxbuf)).raise .checksumMismatch := by
  rw [State.verify, h]

/-- R156, R205: the verification of a frame with a corrupt word goes to `RESPOND` without its words. -/
theorem run_verify_failsWith {n m : Nat} (hj : u.job = some j) (hp : u.phase = .verify)
    (hv : frameVal Config.sg33 (j.xact u.substep u.arg).words u.rxbuf = .corrupt m)
    (harch : SameArch s u) (hout : u.out = s.out ++ events) :
    FailsWith (.next (run Config.sg33 (n + 2) u)) s (j = .beginSeq) events .checksumMismatch
      u.writeAnswers u.wakeups u.readAnswers := by
  rw [run_of_some (advance_verify hj hp), verify_corrupt hv, checked_sg33]
  exact run_respond_failsWith hj rfl rfl harch hout

/-- R155, R205: a reply of the right length with a corrupt word fails whichever operation and substep waits for it. -/
theorem run_read_failsWith {n m : Nat} {bytes : List Byte} {rs : List (Option (List Byte))}
    (hj : u.job = some j) (hp : u.phase = .read) (hr : u.readAnswers = some bytes :: rs)
    (hl : bytes.length = 3 * (j.xact u.substep u.arg).words)
    (hv : frameVal Config.sg33 (j.xact u.substep u.arg).words bytes = .corrupt m)
    (harch : SameArch s u) (hout : u.out = s.out ++ events) :
    FailsWith (.next (run Config.sg33 (n + 3) u)) s (j = .beginSeq) events .checksumMismatch
      u.writeAnswers u.wakeups rs := by
  rw [run_of_some (advance_read_ok hj hp hr hl)]
  exact run_verify_failsWith (u := { u with readAnswers := rs, rxbuf := bytes, phase := .verify })
    hj rfl hv harch hout

/-- R26: a state between two steps in which an operation is in progress goes on with it. -/
theorem step_of_job (hinv : s.Inv Config.sg33) (h0 : s.rst = none) (hj : s.job = some j) :
    step s = .next (run Config.sg33 runFuel s) := by
  obtain ⟨-, hjob, -⟩ := sequencerOk_iff.mp hinv.sequencer
  exact step_of_busy h0 hinv.sequencer (by simpa [hj] using hjob.symm)

end Failures

/-- Settles O35: the run reaches the write with nothing stored, and the failed answer ends it (`run_write_failsWith`). -/
theorem failedWriteEndsTheOperationAtOnce : Obligations.FailedWriteEndsTheOperationAtOnce := by
  refine ⟨fun i x s ws hx hb hw => ?_, fun j s ws hinv h0 hj hp hw => ?_⟩
  · obtain ⟨j, u, he, rfl, hu, hbegin, -⟩ := exec_of_firstXact hx hb
    rw [he, State.runJob, settleDown, runFuel, run_of_some (advance_assemble (State.start_job u j) rfl),
      propext hbegin, ← hu.wakeups, ← hu.readAnswers]
    exact run_write_failsWith (State.start_job u j) rfl (hu.writeAnswers.trans hw) hu.sameArch
      (congrArg (· ++ _) hu.out)
  · rw [step_of_job hinv h0 hj]
    exact run_write_failsWith hj hp hw (.refl s) (List.append_nil _).symm

/-- Settles O38: the run reaches the read with nothing stored, and the corrupt frame ends it
(`run_read_failsWith`). -/
theorem corruptWordFailsTheWholeTransaction : Obligations.CorruptWordFailsTheWholeTransaction := by
  refine ⟨fun i x s bytes m ws n rs hx h1 hb hw hn hr hl hv => ?_,
    fun j s bytes m rs hinv h0 hj hp hr hl hv => ?_⟩
  · obtain ⟨j, u, he, rfl, hu, hbegin, -⟩ := exec_of_firstXact hx hb
    rw [he, runJob_to_read rfl (hu.writeAnswers.trans hw) (hu.wakeups.trans hn) h1, propext hbegin]
    exact run_read_failsWith rfl rfl (hu.readAnswers.trans hr) hl hv hu.sameArch
      (congrArg (· ++ _) hu.out)
  · rw [step_of_job hinv h0 hj]
    exact run_read_failsWith hj hp hr hl hv (.refl s) (List.append_nil _).symm

end Sys2Proof.Machine
end

section
/-! PROOFS. Every failure response of a step (R206): what an operation can have come to when a step ends. -/

namespace Sys2Proof.Machine

section FailureOfAStep

variable {c : Config} {s t u : State} {i : Instr} {j : Job} {o : Option Job}

/-- The events hold no response. -/
def NoResponse (events : List Event) : Prop := ∀ q, .response q ∉ events

/-- R219: the trace port gives no response. -/
theorem traceEvents_noResponse (c : Config) (l : List Check) : NoResponse (traceEvents c l) := by
  intro q
  unfold traceEvents
  split <;> simp

/-- The one response of an operation is its last event. -/
theorem NoResponse.eq_of_mem_append {pre : List Event} {p q : Response} (h : NoResponse pre)
    (hm : .response q ∈ pre ++ [.response p]) : q = p := by
  simpa [h q] using hm

/-- R157: before `RESPOND` a transition stores nothing and gives no response. -/
theorem advance_before_respond (h : advance c s = some t) (hp : s.phase ≠ .respond) :
    SameArch s t ∧ t.job = s.job ∧ ∃ new, t.out = s.out ++ new ∧ NoResponse new := by
  have hsame : SameArch s s := .refl s
  have hnil : s.out = s.out ++ [] := (List.append_nil _).symm
  have hnone : NoResponse [] := fun _ => List.not_mem_nil
  obtain ⟨j, -, ⟨-, rfl⟩ | ⟨-, hw⟩ | ⟨-, hs⟩ | ⟨-, hr⟩ | ⟨-, rfl⟩ | ⟨hp', -⟩⟩ := advance_cases h
  · exact ⟨hsame, rfl, _, rfl, by simp [NoResponse]⟩
  · obtain ⟨ws, ⟨-, rfl⟩ | ⟨-, rfl⟩⟩ := awaitWrite_cases hw
    · exact ⟨hsame, rfl, _, rfl, by simp [NoResponse]⟩
    · exact ⟨hsame, rfl, [], hnil, hnone⟩
  · obtain ⟨n, -, ⟨-, rfl⟩ | ⟨-, rfl⟩⟩ := awaitSleep_cases hs
    · exact ⟨hsame, rfl, [], hnil, hnone⟩
    · exact ⟨hsame, rfl, _, rfl, by simp [NoResponse]⟩
  · obtain ⟨a, rs, -, ⟨bytes, -, -, rfl⟩ | ⟨-, rfl⟩⟩ := awaitRead_cases hr
    · exact ⟨hsame, rfl, [], hnil, hnone⟩
    · exact ⟨hsame, rfl, [], hnil, hnone⟩
  · obtain ⟨words, -, he⟩ | ⟨m, -, he⟩ := verify_cases c s (j.xact s.substep s.arg)
    · rw [he]
      exact ⟨hsame, rfl, _, rfl, traceEvents_noResponse c _⟩
    · rw [he]
      exact ⟨hsame, rfl, _, rfl, traceEvents_noResponse c _⟩
  · exact absurd hp' hp

/-- R157, R171 to R178: a result ends the operation with success, is handled as a failed transaction, or starts the next
substep of `BEGIN`. -/
theorem finish_ends_or_continues (c : Config) (s : State) (j : Job) (r : XactResult) :
    (∃ words, (s.finish c j r).phase = .idle ∧
        (s.finish c j r).out = s.out ++ [.response (okResponse words)]) ∨
      (∃ k, s.finish c j r = s.finish c j (.fail k)) ∨ ∃ v, s.finish c j r = s.nextSubstep v := by
  cases r with
  | fail k => exact .inr (.inl ⟨k, rfl⟩)
  | ok words =>
    cases j with
    | feat =>
      simp only [State.finish]
      split
      · exact .inl ⟨words, rfl, rfl⟩
      · exact .inr (.inl ⟨.familyMismatch, rfl⟩)
    | beginSeq =>
      simp only [State.finish, State.finishBegin]
      split
      · exact .inr (.inr ⟨.readFeatures, rfl⟩)
      · split
        · exact .inr (.inr ⟨.initMeas, rfl⟩)
        · exact .inr (.inl ⟨.familyMismatch, rfl⟩)
      · exact .inl ⟨[], rfl, rfl⟩
    | ident | meas | measRaw | execute x => exact .inl ⟨words, rfl, rfl⟩
    | init | setHum => exact .inl ⟨[], rfl, rfl⟩

/-- What the operation o, none for those that make no transaction, can have come to when the engine has gone from s
to t with it. -/
inductive CameTo (s : State) (o : Option Job) (t : State) : Prop
  /-- It has given no response, and nothing is stored. -/
  | silent (new : List Event) (job : t.job = o) (arch : SameArch s t) (out : t.out = s.out ++ new)
      (noResponse : NoResponse new)
  /-- It has ended with success. -/
  | succeeded (pre : List Event) (words : List Word) (idle : t.phase = .idle)
      (out : t.out = s.out ++ (pre ++ [.response (okResponse words)])) (noResponse : NoResponse pre)
  /-- It has ended with a failure, as R206 says. -/
  | failed (pre : List Event) (k : Cause) (ws : List Bool) (n : Nat)
      (rs : List (Option (List Byte)))
      (fails : FailsWith (.next t) s (o = some .beginSeq) pre k ws n rs)
      (noResponse : NoResponse pre)

/-- A state from which nothing is stored and nothing shown. -/
theorem CameTo.of_same (hj : t.job = o) (ha : SameArch s t) (hout : t.out = s.out) : CameTo s o t :=
  .silent [] hj ha (hout.trans (List.append_nil _).symm) fun _ => List.not_mem_nil

/-- The handling of its result ends an operation that has given no response, or goes on with it (R157). -/
theorem CameTo.of_finish {new : List Event} (c : Config) (r : XactResult) (hj : t.job = some j)
    (harch : SameArch s t) (hout : t.out = s.out ++ new) (hnew : NoResponse new) :
    CameTo s (some j) (t.finish c j r) := by
  obtain ⟨words, hp, hend⟩ | ⟨k, hend⟩ | ⟨v, hend⟩ := finish_ends_or_continues c t j r
  · exact .succeeded new words hp (by rw [hend, hout, List.append_assoc]) hnew
  · have hfails := finish_fail_failsWith (j := j) (k := k) c harch hout
    rw [← Option.some.injEq] at hfails
    exact hend ▸ .failed new k _ _ _ hfails hnew
  · exact hend ▸ .silent new hj harch hout hnew

/-- Every transition keeps `CameTo` (R157). -/
theorem CameTo.advance (h : CameTo s o t) (ha : advance c t = some u) : CameTo s o u := by
  have hidle : t.phase ≠ .idle := fun hp => by cases (advance_idle hp).symm.trans ha
  cases h with
  | succeeded _ _ hp => exact absurd hp hidle
  | failed _ _ _ _ _ hf =>
    obtain ⟨_, ⟨⟩, -, -, -, -, -, hp, -⟩ := hf
    exact absurd hp hidle
  | silent new hjob harch hout hnew =>
    by_cases hp : t.phase = .respond
    · obtain ⟨j, hj, hcase⟩ := advance_cases ha
      obtain ⟨r, -, rfl⟩ : ∃ r, t.pending = some r ∧ u = t.finish c j r := by
        simpa [hp] using hcase
      obtain rfl : some j = o := hj.symm.trans hjob
      exact .of_finish c r hj harch hout hnew
    · obtain ⟨harch', hjob', more, hout', hmore⟩ := advance_before_respond ha hp
      exact .silent (new ++ more) (hjob'.trans hjob) (harch.trans harch')
        (by rw [hout', hout, List.append_assoc])
        fun q hq => (List.mem_append.mp hq).elim (hnew q) (hmore q)

theorem CameTo.settleDown (h : CameTo s o t) : CameTo s o (settleDown c t) :=
  run_preserves (fun _ _ hv ha => hv.advance ha) _ _ h

/-- R206: a failure response is the one an operation ends with. -/
theorem CameTo.failures (h : CameTo s o t) :
    ∃ new, t.out = s.out ++ new ∧ ∀ q, .response q ∈ new → q.ok = false →
      q.words = [] ∧ ∃ pre k ws n rs, FailsWith (.next t) s (o = some .beginSeq) pre k ws n rs := by
  cases h with
  | silent new hj harch hout hnew => exact ⟨new, hout, fun q hq => absurd hq (hnew q)⟩
  | succeeded pre words hp hout hpre =>
    refine ⟨_, hout, fun q hq hfail => ?_⟩
    rw [hpre.eq_of_mem_append hq] at hfail
    cases hfail
  | failed pre k ws n rs hf hpre =>
    obtain ⟨_, ⟨⟩, -, -, -, -, -, -, -, -, -, hout⟩ := id hf
    refine ⟨_, hout.trans (List.append_assoc _ _ _), fun q hq _ => ?_⟩
    rw [hpre.eq_of_mem_append hq]
    exact ⟨rfl, pre, k, ws, n, rs, hf⟩

/-- An idle engine that accepts a transaction runs it (R170). -/
theorem exec_of_accepted (hb : s.busy = false) (h : accepted Config.sg33 s i = some u) :
    exec i s = .next (settleDown Config.sg33 u) := by
  cases i <;> simp only [accepted, accepted.guarded, Option.ite_none_left_eq_some,
    Option.ite_none_right_eq_some, Option.some.injEq, reduceCtorEq] at h
  case setHum a => exact h.2.2 ▸ exec_setHum_idle hb h.1
  case meas => exact h.2 ▸ exec_meas_idle hb
  case measRaw => exact h.2 ▸ exec_measRaw_idle hb
  case ident | feat | init | beginSeq => exact h ▸ whenIdle_idle hb

/-- A host operation that an idle engine answers at once is not `BEGIN`, and where the answer is a failure it has no words
and `CACC` stays (R91, R119, R208). -/
theorem exec_of_not_accepted (hi : i.hostSelectable = true) (hb : s.busy = false)
    (h : accepted Config.sg33 s i = none) :
    Instr.toJob i ≠ some .beginSeq ∧
      ((∃ b words, exec i s = .next (({ s with cacc := b } : State).reply (okResponse words))) ∨
        ∃ a k, exec i s = .next ((s.latchArg a).reply (failResponse k))) := by
  cases i <;> simp only [Instr.hostSelectable, Bool.false_eq_true] at hi
  case setHum a =>
    cases hr : humInRange (argBits Config.sg33 a) with
    | true => cases (if_pos hr).symm.trans h
    | false => exact ⟨by simp [Instr.toJob], .inr ⟨_, _, exec_setHum_outOfRange hb hr⟩⟩
  case ident | feat | init | meas | measRaw | beginSeq => cases h
  case crcClr | crcUpd | crcRd =>
    exact ⟨by simp [Instr.toJob], .inl ⟨_, _, whenIdle_idle hb⟩⟩
  all_goals exact ⟨by simp [Instr.toJob], .inr ⟨s.arg, _, whenIdle_idle hb⟩⟩

/-- What a host operation comes to in an idle engine, the record and the registers of s before it. -/
theorem exec_cameTo (hi : i.hostSelectable = true) (hb : u.busy = false) (hp : u.phase = .idle)
    (harch : SameArch s u) (hout : u.out = s.out) (h : exec i u = .next t) :
    CameTo s (Instr.toJob i) t := by
  cases ha : accepted Config.sg33 u i with
  | some v =>
    cases (exec_of_accepted hb ha).symm.trans h
    obtain ⟨j, sub, arg, hj, rfl⟩ := accepted_eq_start ha
    exact hj ▸ (CameTo.of_same (t := ({ u with substep := sub, arg := arg } : State).start j)
      rfl harch hout).settleDown
  | none =>
    obtain ⟨hj, ⟨b, words, he⟩ | ⟨a, k, he⟩⟩ := exec_of_not_accepted hi hb ha
    · cases he.symm.trans h
      exact .succeeded [] words hp (congrArg (· ++ _) hout) fun _ => List.not_mem_nil
    · cases he.symm.trans h
      obtain ⟨hres, hready, hcacc⟩ := harch
      refine .failed [] k _ _ _ ⟨_, rfl, hres, hcacc, fun h => absurd h hj, fun _ => hready, hb, hp,
        rfl, rfl, rfl, ?_⟩ fun _ => List.not_mem_nil
      rw [← hout, List.append_nil]
      rfl

/-- What a step without reset comes to, of the operation it works on (R32, R236). -/
theorem step_cameTo (hinv : s.Inv Config.sg33) (h0 : s.rst = none) (h : step s = .next t) :
    ∃ o, (s.worksOn .beginSeq ↔ o = some .beginSeq) ∧ CameTo s o t := by
  obtain ⟨hb, rfl⟩ | ⟨hb, hq, rfl⟩ | ⟨q, qs, hb, hq, he⟩ := step_cases h0 h
  · exact ⟨s.job, by simp [State.worksOn, hb], (CameTo.of_same rfl (.refl s) rfl).settleDown⟩
  · obtain ⟨-, hjob, -⟩ := sequencerOk_iff.mp hinv.sequencer
    exact ⟨none, by simp [State.worksOn, hb, hq], .of_same (by simpa [hb] using hjob) (.refl _) rfl⟩
  · obtain ⟨hphase, -, -⟩ := sequencerOk_iff.mp hinv.sequencer
    exact ⟨_, by simp [State.worksOn, hb, hq],
      exec_cameTo (u := { s with reqs := qs }) (decodeRequest_selectable q) hb
        (by simpa [hb] using hphase) (.refl s) rfl he⟩

end FailureOfAStep

/-- Settles O55: a failure response of a step is the last event of an operation that has come to `CameTo.failed`. -/
theorem failureLeavesTheStateBehind : Obligations.FailureLeavesTheStateBehind := by
  intro s t hinv h0 h
  obtain ⟨o, hworks, hcame⟩ := step_cameTo hinv h0 h
  obtain ⟨new, hout, hfail⟩ := hcame.failures
  refine ⟨new, hout, fun r hr hok => ?_⟩
  obtain ⟨hwords, -, -, -, -, -, _, ⟨⟩, hres, hcacc, hbegin, hother, hbusy, hphase, -⟩ := hfail r hr hok
  exact ⟨hres, hcacc, hbusy, hphase, hwords, fun hw => hbegin (hworks.mp hw),
    fun hw => hother (mt hworks.mpr hw)⟩

end Sys2Proof.Machine
end

section
/-! PROOFS. Decoding and encoding agree, of host requests (R90) and of command frames (R89, R95). -/

namespace Sys2Proof.Machine

section Encodings

variable {c : Config} {i : Instr} {f : List Byte} {r : Request} {code : Word} {k : WireCommand}

/-- R90: the operations with a request are those with a select code. -/
theorem encode_isSome (i : Instr) : (encode i).isSome = i.hostSelectable := by
  cases i <;> rfl

theorem decodeRequest_of_encode (h : encode i = some r) : decodeRequest r = i := by
  cases i <;> cases h <;> rfl

/-- R32: the operand belongs to the operation where the select code is that of `SETHUM` or `CRC8.UPD`, and is ignored
everywhere else. -/
theorem encode_decodeRequest (r : Request) :
    encode (decodeRequest r) = some r ∨
      encode (decodeRequest r) = some ⟨r.op, 0⟩ ∧ r.op ≠ 0x5#4 ∧ r.op ≠ 0x9#4 := by
  obtain ⟨op, arg⟩ := r
  by_cases h5 : op = 0x5#4
  · subst h5
    exact .inl rfl
  by_cases h9 : op = 0x9#4
  · subst h9
    exact .inl rfl
  refine .inr ⟨?_, h5, h9⟩
  obtain ⟨⟨n, hn⟩⟩ := op
  interval_cases n <;> simp at h5 h9 ⊢ <;> rfl

/-- R133: the code of a frame determines its first two bytes. -/
theorem wordBytes_wordDec (b0 b1 : Byte) : wordBytes (wordDec b0 b1) = [b0, b1] := by
  simp [wordBytes]

/-- R89: a code of the table belongs to one of the commands that are a code alone, or to `SETHUM`. -/
theorem commandOfCode_cases (h : commandOfCode code = some k) :
    (∃ i, k = .noPayload i ∧ ∀ c, encodeFrame c i = some (wordBytes code)) ∨
      (k = .oneGroup ∧ wordBytes code = [0x20#8, 0x61#8]) := by
  by_cases hset : code = 0x2061#16
  · subst hset
    cases h
    exact .inr ⟨rfl, by decide⟩
  · simp only [commandOfCode, hset, if_false] at h
    repeat' split at h
    case isFalse => cases h
    all_goals
      subst_vars
      cases h
      exact .inl ⟨_, rfl, fun _ => rfl⟩

/-- A byte sequence that decodes has the code of a command, and behind it nothing, or for `SETHUM` a group that verifies
and whose value some operand of `ARG_WIDTH` bits has (R82, R92, R95). -/
theorem decodeFrame_eq_ok (h : decodeFrame c f = .ok i) :
    ∃ b0 b1, (f = [b0, b1] ∧ commandOfCode (wordDec b0 b1) = some (.noPayload i)) ∨
      ∃ d0 d1 q, f = [b0, b1, d0, d1, q] ∧ commandOfCode (wordDec b0 b1) = some .oneGroup ∧
        wordChk c d0 d1 q = true ∧ humArg (wordDec d0 d1) < 2 ^ c.argWidth ∧
        i = .setHum (humArg (wordDec d0 d1)) := by
  unfold decodeFrame at h
  split at h
  · next b0 b1 rest =>
    refine ⟨b0, b1, ?_⟩
    split at h
    · cases h
    · next j hk => cases h; exact .inl ⟨rfl, hk⟩
    · next d0 d1 q hk =>
      split at h
      · cases h
      · next hq =>
        split at h
        · next hw =>
          cases h
          exact .inr ⟨d0, d1, q, rfl, hk, by simpa using hq, hw, rfl⟩
        · cases h
    · cases h
  · cases h

theorem wordChk_iff (c : Config) (b0 b1 q : Byte) : wordChk c b0 b1 q = true ↔ crc8 c [b0, b1] = q := by
  simp [wordChk]

/-- R130: a group that verifies is the encoding of its word. -/
theorem groupEnc_wordDec {d0 d1 q : Byte} (h : wordChk c d0 d1 q = true) :
    groupEnc c (wordDec d0 d1) = [d0, d1, q] := by
  rw [groupEnc, wordBytes_wordDec, (wordChk_iff ..).mp h]
  rfl

/-- R177: the frame of `SETHUM` of the least operand of a scaled value is the group of that value behind the code. -/
theorem encodeFrame_humArg {p : Word} (h : humArg p < 2 ^ c.argWidth) :
    encodeFrame c (.setHum (humArg p)) = some ([0x20#8, 0x61#8] ++ groupEnc c p) := by
  rw [encodeFrame, argBits_of_lt h, if_pos ((humInRange_iff _).mpr (humArg_le p)), humScale_humArg]

/-- A frame that decodes is the frame of the command it decodes to (R95). -/
theorem encodeFrame_of_decodeFrame (h : decodeFrame c f = .ok i) : encodeFrame c i = some f := by
  obtain ⟨b0, b1, ⟨rfl, hcode⟩ | ⟨d0, d1, q, rfl, hcode, hchk, hwidth, rfl⟩⟩ := decodeFrame_eq_ok h
  · obtain ⟨j, hj, hf⟩ | ⟨hk, -⟩ := commandOfCode_cases hcode
    · cases hj
      rw [hf, wordBytes_wordDec]
    · cases hk
  · obtain ⟨j, hj, -⟩ | ⟨-, hb⟩ := commandOfCode_cases hcode
    · cases hj
    · rw [wordBytes_wordDec] at hb
      cases hb
      rw [encodeFrame_humArg hwidth, groupEnc_wordDec hchk]
      rfl

/-- R91 (d): `humArg` gives the least operand of a scaled value. -/
theorem humArg_humScale_le {v : Nat} (hv : v ≤ 256000) : humArg (humScale v) ≤ v := by
  rw [humArg, humScale_toNat hv]
  omega

/-- A `SETHUM` frame decodes to the least operand of its scaled value (assumption 18). -/
theorem decodeFrame_setHum {p : Word} (h : humArg p < 2 ^ c.argWidth) :
    decodeFrame c ([0x20#8, 0x61#8] ++ groupEnc c p) = .ok (.setHum (humArg p)) := by
  have hcode : commandOfCode (wordDec 0x20#8 0x61#8) = some .oneGroup := by decide
  have hchk : wordChk c (hiByte p) (loByte p) (crc8 c [hiByte p, loByte p]) = true :=
    (wordChk_iff ..).mpr rfl
  simp [groupEnc, wordBytes, decodeFrame, hcode, hchk, h]

/-- A command without payload is decoded from its code (R89). -/
theorem decodeFrame_code {b0 b1 : Byte} (h : commandOfCode (wordDec b0 b1) = some (.noPayload i)) :
    decodeFrame c [b0, b1] = .ok i := by
  simp [decodeFrame, h]

/-- R89: the command frames, `SETHUM` apart, are the codes that decode to their command. -/
theorem encodeFrame_cases (h : encodeFrame c i = some f) :
    (∃ b0 b1, f = [b0, b1] ∧ commandOfCode (wordDec b0 b1) = some (.noPayload i)) ∨
      ∃ a, i = .setHum a ∧ argBits c a ≤ 256000 ∧
        f = [0x20#8, 0x61#8] ++ groupEnc c (humScale (argBits c a)) := by
  cases i <;> simp only [encodeFrame, reduceCtorEq] at h
  case setHum a =>
    split at h
    · next ha => cases h; exact .inr ⟨a, rfl, (humInRange_iff _).mp ha, rfl⟩
    · cases h
  all_goals cases h; exact .inl ⟨_, _, rfl, by decide⟩

end Encodings

/-- Settles O11: the two tables of R90 are each other's inverse (`decodeRequest_of_encode`, `encode_decodeRequest`). -/
theorem requestsDecodeToWhatTheyEncode : Obligations.RequestsDecodeToWhatTheyEncode := by
  refine ⟨fun i => ⟨encode_isSome i, fun r => decodeRequest_of_encode⟩, fun r => ?_⟩
  obtain h | ⟨h, h5, h9⟩ := encode_decodeRequest r
  · exact ⟨r, h, rfl, .inl rfl⟩
  · exact ⟨_, h, rfl, .inr ⟨rfl, h5, h9⟩⟩

/-- Settles O12: a code alone decodes to its command (`decodeFrame_code`), and a `SETHUM` frame to the least operand of
its scaled value, which is no wider than the one encoded (`humArg_humScale_le`). -/
theorem commandFramesDecodeToTheirCommand : Obligations.CommandFramesDecodeToTheirCommand := by
  intro c i f h
  obtain ⟨b0, b1, rfl, hcode⟩ | ⟨a, rfl, ha, rfl⟩ := encodeFrame_cases h
  · exact ⟨i, decodeFrame_code hcode, h, .inl rfl⟩
  · have hle := humArg_humScale_le ha
    have hwidth := hle.trans_lt (argBits_lt c a)
    exact ⟨_, decodeFrame_setHum hwidth, encodeFrame_humArg hwidth, .inr ⟨a, _, rfl, rfl, hwidth,
      (humInRange_iff _).mpr (hle.trans ha), humScale_humArg _⟩⟩

/-- Settles O13: what decodes was encoded (`encodeFrame_of_decodeFrame`). -/
theorem onlyCommandFramesDecode : Obligations.OnlyCommandFramesDecode :=
  fun _ _ _ => encodeFrame_of_decodeFrame

/-- Settles O14: each word is the bytes of its frame or a select code, and decodes by the tables. -/
theorem writtenWordsDecode : Obligations.WrittenWordsDecode := by
  unfold Obligations.WrittenWordsDecode
  decide +kernel

end Sys2Proof.Machine
end

section
/-! PROOFS. The algebra of the checksum (R117, R118) and the framing functions (R130 to R135). -/

namespace Sys2Proof.Machine

section ChecksumAlgebra

variable {c : Config} {poly : Byte}

/-- R117 (a): the shift and the test on bit 7 are both linear. -/
theorem crcBit_xor (poly a b : Byte) : crcBit poly (a ^^^ b) = crcBit poly a ^^^ crcBit poly b := by
  simp only [crcBit, BitVec.msb_xor, BitVec.shiftLeft_xor_distrib]
  have hcancel : poly ^^^ poly = 0 := BitVec.xor_self
  cases a.msb <;> cases b.msb <;> simp only [Bool.xor_false, Bool.xor_true, Bool.not_true,
    Bool.not_false, Bool.false_eq_true, if_true, if_false]
  · ac_rfl
  · ac_rfl
  · calc a <<< 1 ^^^ b <<< 1 = (a <<< 1 ^^^ b <<< 1) ^^^ (poly ^^^ poly) := by simp
      _ = (a <<< 1 ^^^ poly) ^^^ (b <<< 1 ^^^ poly) := by ac_rfl

theorem crcBits_xor (poly : Byte) (n : Nat) (a b : Byte) :
    crcBits poly n (a ^^^ b) = crcBits poly n a ^^^ crcBits poly n b := by
  induction n generalizing a b with
  | zero => rfl
  | succ n ih => rw [crcBits, crcBit_xor, ih]; rfl

/-- R117 (b): the byte step is linear in accumulator and byte together. -/
theorem crcByte_xor (poly a b a' b' : Byte) :
    crcByte poly (a ^^^ a') (b ^^^ b') = crcByte poly a b ^^^ crcByte poly a' b' := by
  rw [crcByte, crcByte, crcByte, ← crcBits_xor]
  congr 1
  ac_rfl

/-- R117 (d): the accumulators of two sequences of one length differ by that of their bytewise difference. -/
theorem crcFrom_xor (poly a b : Byte) {d e : List Byte} (h : d.length = e.length) :
    crcFrom poly a d ^^^ crcFrom poly b e =
      crcFrom poly (a ^^^ b) (List.zipWith (fun x y => x ^^^ y) d e) := by
  induction d generalizing a b e with
  | nil => obtain rfl := List.length_eq_zero_iff.mp h.symm; rfl
  | cons x d ih =>
    obtain ⟨y, e, rfl⟩ := List.exists_cons_of_length_eq_add_one h.symm
    rw [crcFrom_cons, crcFrom_cons, ih _ _ (by simpa using h), ← crcByte_xor]
    rfl

/-- R117 (c): a sequence followed by its checksum has the checksum zero. -/
theorem crc8_append_crc8 (c : Config) (d : List Byte) : crc8 c (d ++ [crc8 c d]) = 0 := by
  rw [crc8_append, crcFrom_cons, crcByte_self]
  rfl

/-- The shift alone has bit 0 clear, so that an odd polynomial cannot cancel it; and without the polynomial no bit was
shifted out. -/
theorem crcBit_eq_zero (hodd : poly.getLsbD 0 = true) {a : Byte} (h : crcBit poly a = 0) : a = 0 := by
  rw [crcBit] at h
  split at h
  · have h0 : ((a <<< 1) ^^^ poly).getLsbD 0 = false := by rw [h]; rfl
    rw [BitVec.getLsbD_xor, hodd, BitVec.getLsbD_shiftLeft] at h0
    cases h0
  · next hmsb =>
    have ha : a.toNat * 2 % 256 = 0 := by
      simpa [BitVec.toNat_shiftLeft, Nat.shiftLeft_eq] using congrArg BitVec.toNat h
    have hlt := BitVec.msb_eq_false_iff_two_mul_lt.mp (Bool.eq_false_of_not_eq_true hmsb)
    exact BitVec.eq_of_toNat_eq (show a.toNat = 0 by omega)

/-- R117 (e): the bit step of an odd polynomial loses nothing. -/
theorem crcBit_injective (hodd : poly.getLsbD 0 = true) : Function.Injective (crcBit poly) := by
  intro a b h
  have hxor : crcBit poly (a ^^^ b) = 0 := by rw [crcBit_xor, h, BitVec.xor_self]; rfl
  exact BitVec.xor_eq_zero_iff.mp (crcBit_eq_zero hodd hxor)

theorem crcBits_injective (hodd : poly.getLsbD 0 = true) (n : Nat) :
    Function.Injective (crcBits poly n) := by
  induction n with
  | zero => exact fun _ _ h => h
  | succ n ih => exact ih.comp (crcBit_injective hodd)

/-- R117 (e): the byte step of an odd polynomial is injective in the XOR of accumulator and byte. -/
theorem crcByte_eq_iff (hodd : poly.getLsbD 0 = true) {a b a' b' : Byte} :
    crcByte poly a b = crcByte poly a' b' ↔ a ^^^ b = a' ^^^ b' :=
  ⟨fun h => crcBits_injective hodd 8 h, fun h => crcByte_congr_xor poly h⟩

theorem crc8_pair (c : Config) (b0 b1 : Byte) :
    crc8 c [b0, b1] = crcByte c.poly (crcByte c.poly c.init b0) b1 := rfl

/-- R118: over two bytes the checksum of an odd polynomial changes with either of them. -/
theorem crc8_pair_eq_iff (hodd : c.poly.getLsbD 0 = true) {b0 b1 b0' b1' : Byte} :
    crc8 c [b0, b1] = crc8 c [b0', b1'] ↔
      crcByte c.poly c.init b0 ^^^ b1 = crcByte c.poly c.init b0' ^^^ b1' := by
  rw [crc8_pair, crc8_pair, crcByte_eq_iff hodd]

theorem xor_eq_self {a e : Byte} (h : a ^^^ e = a) : e = 0 := by
  simpa [← BitVec.xor_assoc] using congrArg (a ^^^ ·) h

theorem wordChk_eq_false_iff {b0 b1 q : Byte} : wordChk c b0 b1 q = false ↔ crc8 c [b0, b1] ≠ q := by
  rw [← Bool.not_eq_true, wordChk_iff]

/-- R87, R133: the word decoder puts the first byte on top. -/
theorem wordDec_eq_append (b0 b1 : Byte) : wordDec b0 b1 = b0 ++ b1 := by
  rw [wordDec, BitVec.append_def, BitVec.shiftLeftZeroExtend_eq, BitVec.setWidth'_eq]

end ChecksumAlgebra

section Framing

variable {c : Config} {w : Nat} {rx : List Byte}

/-- Word i of a reply frame verifies (R132). -/
def wordVerifies (c : Config) (rx : List Byte) (i : Nat) : Prop :=
  wordChk c (rx.getD (3 * i) 0) (rx.getD (3 * i + 1) 0) (rx.getD (3 * i + 2) 0) = true

/-- Word i of a reply frame (R133). -/
def wordAt (rx : List Byte) (i : Nat) : Word := wordDec (rx.getD (3 * i) 0) (rx.getD (3 * i + 1) 0)

/-- A frame of at least one word is its first three bytes and the frame of the rest. -/
theorem exists_group_of_length (h : rx.length = 3 * (w + 1)) :
    ∃ b0 b1 q rest, rx = b0 :: b1 :: q :: rest ∧ rest.length = 3 * w := by
  obtain ⟨b0, l, rfl⟩ := List.exists_cons_of_length_eq_add_one (n := 3 * w + 2) h
  obtain ⟨b1, l, rfl⟩ := List.exists_cons_of_length_eq_add_one (n := 3 * w + 1) (Nat.succ.inj h)
  obtain ⟨q, l, rfl⟩ := List.exists_cons_of_length_eq_add_one (n := 3 * w)
    (Nat.succ.inj (Nat.succ.inj h))
  exact ⟨b0, b1, q, l, rfl, Nat.succ.inj (Nat.succ.inj (Nat.succ.inj h))⟩

variable {b0 b1 q : Byte} {rest : List Byte}

@[simp] theorem wordVerifies_zero :
    wordVerifies c (b0 :: b1 :: q :: rest) 0 ↔ wordChk c b0 b1 q = true := Iff.rfl

@[simp] theorem wordVerifies_succ (i : Nat) :
    wordVerifies c (b0 :: b1 :: q :: rest) (i + 1) ↔ wordVerifies c rest i := Iff.rfl

@[simp] theorem wordAt_zero : wordAt (b0 :: b1 :: q :: rest) 0 = wordDec b0 b1 := rfl

@[simp] theorem wordAt_succ (i : Nat) : wordAt (b0 :: b1 :: q :: rest) (i + 1) = wordAt rest i := rfl

theorem frameValFrom_cons (c : Config) (w i : Nat) (b0 b1 q : Byte) (rest : List Byte) :
    frameValFrom c (w + 1) i (b0 :: b1 :: q :: rest) =
      if wordChk c b0 b1 q then
        match frameValFrom c w (i + 1) rest with
        | .ok words => .ok (wordDec b0 b1 :: words)
        | .corrupt j => .corrupt j
      else .corrupt i := rfl

/-- R134: the outcome over the words from index i on: all of them, or the first that does not verify. -/
theorem frameValFrom_spec (c : Config) (i : Nat) (h : rx.length = 3 * w) :
    ((∀ k < w, wordVerifies c rx k) ∧
        frameValFrom c w i rx = .ok ((List.range w).map (wordAt rx))) ∨
      ∃ k < w, ¬ wordVerifies c rx k ∧ (∀ m < k, wordVerifies c rx m) ∧
        frameValFrom c w i rx = .corrupt (i + k) := by
  induction w generalizing i rx with
  | zero => exact .inl ⟨by simp, rfl⟩
  | succ w ih =>
    obtain ⟨b0, b1, q, rest, rfl, hrest⟩ := exists_group_of_length h
    rw [frameValFrom_cons]
    by_cases hq : wordChk c b0 b1 q = true
    · rw [if_pos hq]
      obtain ⟨hall, hv⟩ | ⟨k, hk, hbad, hgood, hv⟩ := ih (i + 1) hrest <;> rw [hv]
      · refine .inl ⟨fun k hk => ?_, by simp [List.range_succ_eq_map, Function.comp_def]⟩
        cases k with
        | zero => exact hq
        | succ k => exact hall k (by omega)
      · refine .inr ⟨k + 1, by omega, hbad, fun m hm => ?_, by simp [Nat.add_assoc, Nat.add_comm 1]⟩
        cases m with
        | zero => exact hq
        | succ m => exact hgood m (by omega)
    · rw [if_neg hq]
      exact .inr ⟨0, by omega, hq, by simp, rfl⟩

/-- R134: `FRAME.VAL` on a frame of the length asked for. -/
theorem frameVal_spec (c : Config) (h : rx.length = 3 * w) :
    ((∀ k < w, wordVerifies c rx k) ∧ frameVal c w rx = .ok ((List.range w).map (wordAt rx))) ∨
      ∃ k < w, ¬ wordVerifies c rx k ∧ (∀ m < k, wordVerifies c rx m) ∧
        frameVal c w rx = .corrupt k := by
  simpa [frameVal] using frameValFrom_spec c 0 h

end Framing

/-- Settles O20: bit step and byte step are linear (`crcBit_xor`, `crcByte_xor`), and so is the checksum
(`crcFrom_xor`); a byte equal to the accumulator clears it (`crc8_append_crc8`). -/
theorem checksumIsLinear : Obligations.ChecksumIsLinear := by
  refine ⟨crcBit_xor, fun poly a b => ⟨crcByte_xor poly a 0 b 0, ?_⟩, crc8_append_crc8,
    fun c d e h => crcFrom_xor c.poly c.init c.init h |>.trans ?_⟩
  · exact crcByte_congr_xor poly (BitVec.xor_zero).symm
  · rw [BitVec.xor_self]
    rfl

/-- Settles O21: the steps are injective (`crcBit_injective`, `crcByte_eq_iff`) on a finite type. -/
theorem oddPolynomialStepsAreBijections : Obligations.OddPolynomialStepsAreBijections := by
  intro poly hodd
  refine ⟨Finite.injective_iff_bijective.mp (crcBit_injective hodd), fun b =>
    Finite.injective_iff_bijective.mp fun a a' h => ?_⟩
  exact (BitVec.xor_left_inj _).mp ((crcByte_eq_iff hodd).mp h)

/-- Settles O22: the group is its two bytes and their checksum, and the bytes are those of the parameter
(`wordDec_bytes`). -/
theorem encodedGroupsVerifyAndDecode : Obligations.EncodedGroupsVerifyAndDecode :=
  fun c p => ⟨hiByte p, loByte p, crc8 c (wordBytes p), rfl, (wordChk_iff ..).mpr rfl, wordDec_bytes p⟩

/-- Settles O23: the checksum of the two data bytes changes with either of them (`crc8_pair_eq_iff`), and is not the
changed checksum byte. -/
theorem oneTamperedByteIsDetected : Obligations.OneTamperedByteIsDetected := by
  intro c b0 b1 k e hodd hk he
  obtain rfl := (wordChk_iff ..).mp hk
  simp only [wordChk_eq_false_iff, ne_eq, crc8_pair_eq_iff hodd]
  refine ⟨fun h => he ?_, fun h => he ?_, fun h => he ?_⟩
  · exact xor_eq_self ((BitVec.xor_right_inj _).mp
      ((crcByte_eq_iff hodd).mp ((BitVec.xor_left_inj _).mp h)))
  · exact xor_eq_self ((BitVec.xor_right_inj _).mp h)
  · exact xor_eq_self h.symm

/-- Settles O27: the code bytes, then the groups one behind the other (`cmdAsm_length` for the count). -/
theorem commandAssemblerConcatenatesGroups : Obligations.CommandAssemblerConcatenatesGroups := by
  refine ⟨fun c code => ?_, fun c code p ps => ?_, cmdAsm_length⟩
  · rw [cmdAsm_nil, wordBytes_eq_extractLsb']
  · simp [cmdAsm]

/-- Settles O28: the comparison is of whole bytes (`wordChk_iff`), and the first byte has the weight 256
(`wordDec_toNat`). -/
theorem wordCheckComparesAndDecoderIsBigEndian : Obligations.WordCheckComparesAndDecoderIsBigEndian := by
  refine ⟨wordChk_iff, fun b0 b1 => ⟨wordDec_eq_append b0 b1, ?_⟩⟩
  rw [wordDec_toNat, Nat.mul_comm]

/-- Settles O29: of the two outcomes of `frameVal_spec` each excludes the other, and the first bad word is unique. -/
theorem frameAcceptedExactlyWhenAllWordsVerify : Obligations.FrameAcceptedExactlyWhenAllWordsVerify := by
  refine ⟨fun c w rx words hl => ?_, fun c w rx j hl => ?_⟩ <;>
    obtain ⟨hall, hv⟩ | ⟨k, hk, hbad, hgood, hv⟩ := frameVal_spec c hl <;> rw [hv]
  · exact ⟨fun h => ⟨hall, (FrameResult.ok.inj h).symm⟩, fun h => congrArg _ h.2.symm⟩
  · exact ⟨nofun, fun h => absurd (h.1 k hk) hbad⟩
  · refine ⟨nofun, fun ⟨hj, hf, _⟩ => ?_⟩
    rw [hall j hj] at hf
    cases hf
  · refine ⟨fun h => ?_, ?_⟩
    · obtain rfl := FrameResult.corrupt.inj h
      exact ⟨hk, by simpa [wordVerifies] using hbad, hgood⟩
    · rintro ⟨hj, hf, hbefore⟩
      obtain hlt | rfl | hlt := Nat.lt_trichotomy k j
      · exact absurd (hbefore k hlt) hbad
      · rfl
      · exact absurd (hgood j hlt) (by simpa [wordVerifies] using hf)

end Sys2Proof.Machine
end

section
/-! PROOFS. A run of the sequencer ends where no transition is enabled, and goes on from wherever it has got to
(R157, assumption 11). -/

namespace Sys2Proof.Machine

section Runs

variable {c : Config} {s s' t : State} {j : Job}

/-- How many substeps of `BEGIN` come after this one (R178). -/
def Substep.later : Substep → Nat
  | .identify => 2
  | .readFeatures => 1
  | .initMeas => 0

/-- A bound on the transitions an operation in progress has still to make: those of its transaction, and six for each
later substep of `BEGIN` (R157, R178). -/
def State.rank (s : State) : Nat :=
  s.phase.transitionsLeft + if s.job = some .beginSeq then 6 * s.substep.later else 0

theorem Phase.transitionsLeft_le (p : Phase) : p.transitionsLeft ≤ 6 := by
  cases p <;> decide

theorem Substep.later_le (u : Substep) : u.later ≤ 2 := by
  cases u <;> decide

theorem rank_le_runFuel (s : State) : s.rank ≤ runFuel := by
  have hp := s.phase.transitionsLeft_le
  have hu := s.substep.later_le
  unfold State.rank runFuel
  split <;> omega

/-- R178: the handling of a result of `BEGIN` ends it, or goes on with a later substep. -/
theorem finish_beginSeq_cases (c : Config) (s : State) (r : XactResult) :
    (s.finish c .beginSeq r).phase = .idle ∨
      ∃ v, v.later < s.substep.later ∧ s.finish c .beginSeq r = s.nextSubstep v := by
  cases r with
  | fail k => exact .inl rfl
  | ok words =>
    simp only [State.finish, State.finishBegin]
    split
    · next hu => exact .inr ⟨.readFeatures, by simp [hu, Substep.later], rfl⟩
    · next hu =>
      split
      · exact .inr ⟨.initMeas, by simp [hu, Substep.later], rfl⟩
      · exact .inl rfl
    · exact .inl rfl

theorem finish_ends_or_nextSubstep (c : Config) (s : State) (j : Job) (r : XactResult) :
    (∃ q, (s.finish c j r).phase = .idle ∧ (s.finish c j r).busy = false ∧
        (s.finish c j r).job = none ∧ (s.finish c j r).out = s.out ++ [.response q]) ∨
      ∃ v, j = .beginSeq ∧ v.later < s.substep.later ∧ s.finish c j r = s.nextSubstep v := by
  obtain ⟨words, -, -, hf⟩ | ⟨words, -, -, hf⟩ | ⟨b, q, -, hf⟩ | ⟨v, rfl, hf⟩ := finish_cases c s j r
  · exact .inl ⟨okResponse words, by simp [hf]⟩
  · exact .inl ⟨okResponse words, by simp [hf]⟩
  · exact .inl ⟨q, by simp [hf]⟩
  · obtain hidle | ⟨v', hlt, hf'⟩ := finish_beginSeq_cases c s r
    · rw [hf] at hidle
      cases hidle
    · exact .inr ⟨v', rfl, hlt, hf'⟩

/-- What a transition short of `RESPOND` does: it leaves the operation, its operand, the architectural state and the reset
and request ports as they are, gives no response, and brings the transaction nearer to its end (R151 to R156). -/
structure PhaseStep (s t : State) : Prop where
  rest : t = { s with
    phase := t.phase, txbuf := t.txbuf, rxbuf := t.rxbuf, acc := t.acc, bitcnt := t.bitcnt
    pending := t.pending, writeAnswers := t.writeAnswers, wakeups := t.wakeups
    readAnswers := t.readAnswers, out := t.out }
  out : ∃ new, t.out = s.out ++ new ∧ NoResponse new
  notIdle : t.phase ≠ .idle
  nearer : t.phase.transitionsLeft < s.phase.transitionsLeft
  pending : s.pending = none → (t.pending.isSome = true ↔ t.phase = .respond)

theorem PhaseStep.busy (h : PhaseStep s t) : t.busy = s.busy := (congrArg State.busy h.rest :)

theorem PhaseStep.job (h : PhaseStep s t) : t.job = s.job := (congrArg State.job h.rest :)

theorem PhaseStep.substep (h : PhaseStep s t) : t.substep = s.substep :=
  (congrArg State.substep h.rest :)

theorem PhaseStep.arg (h : PhaseStep s t) : t.arg = s.arg := (congrArg State.arg h.rest :)

theorem PhaseStep.sameArch (h : PhaseStep s t) : SameArch s t :=
  ⟨⟨(congrArg State.eco2 h.rest :), (congrArg State.tvoc h.rest :), (congrArg State.rawH2 h.rest :),
    (congrArg State.rawEth h.rest :)⟩, (congrArg State.ready h.rest :), (congrArg State.cacc h.rest :)⟩

theorem PhaseStep.ports (h : PhaseStep s t) :
    t.rst = s.rst ∧ t.reqs = s.reqs ∧ t.resets = s.resets :=
  ⟨(congrArg State.rst h.rest :), (congrArg State.reqs h.rest :), (congrArg State.resets h.rest :)⟩

theorem advance_phaseStep (h : advance c s = some t) (hp : s.phase ≠ .respond) : PhaseStep s t := by
  have hnil : ∃ new, s.out = s.out ++ new ∧ NoResponse new :=
    ⟨[], (List.append_nil _).symm, fun _ => List.not_mem_nil⟩
  obtain ⟨j, -, ⟨hp, rfl⟩ | ⟨hp, hw⟩ | ⟨hp, hs⟩ | ⟨hp, hr⟩ | ⟨hp, rfl⟩ | ⟨hp', -⟩⟩ := advance_cases h
  · exact ⟨rfl, ⟨_, rfl, by simp [NoResponse]⟩, by simp, by simp [hp, Phase.transitionsLeft], by simp +contextual⟩
  · obtain ⟨ws, ⟨-, rfl⟩ | ⟨-, rfl⟩⟩ := awaitWrite_cases hw
    · exact ⟨rfl, ⟨_, rfl, by simp [NoResponse]⟩, by simp, by simp [hp, Phase.transitionsLeft], by simp +contextual⟩
    · exact ⟨rfl, hnil, by simp, by simp [hp, Phase.transitionsLeft], by simp⟩
  · obtain ⟨n, -, ⟨-, rfl⟩ | ⟨-, rfl⟩⟩ := awaitSleep_cases hs
    · exact ⟨rfl, hnil, by simp, by simp [hp, Phase.transitionsLeft], by simp⟩
    · exact ⟨rfl, ⟨_, rfl, by simp [NoResponse]⟩, by simp, by simp [hp, Phase.transitionsLeft], by simp +contextual⟩
  · obtain ⟨a, rs, -, ⟨bytes, -, -, rfl⟩ | ⟨-, rfl⟩⟩ := awaitRead_cases hr
    · exact ⟨rfl, hnil, by simp, by simp [hp, Phase.transitionsLeft], by simp +contextual⟩
    · exact ⟨rfl, hnil, by simp, by simp [hp, Phase.transitionsLeft], by simp⟩
  · obtain ⟨words, -, he⟩ | ⟨m, -, he⟩ := verify_cases c s (j.xact s.substep s.arg)
    all_goals
      rw [he]
      exact ⟨rfl, ⟨_, rfl, traceEvents_noResponse c _⟩, by simp, by simp [hp, Phase.transitionsLeft], by simp⟩
  · exact absurd hp' hp

/-- One transition is a step of the transaction, or the handling of its result (R157). -/
theorem advance_phaseStep_or_finish (h : advance c s = some t) :
    (s.phase ≠ .respond ∧ PhaseStep s t) ∨
      ∃ j r, s.phase = .respond ∧ s.job = some j ∧ s.pending = some r ∧ t = s.finish c j r := by
  by_cases hp : s.phase = .respond
  · obtain ⟨j, hj, hcase⟩ := advance_cases h
    obtain ⟨r, hr, rfl⟩ : ∃ r, s.pending = some r ∧ t = s.finish c j r := by simpa [hp] using hcase
    exact .inr ⟨j, r, hp, hj, hr, rfl⟩
  · exact .inl ⟨hp, advance_phaseStep h hp⟩

/-- Every transition brings the operation nearer to its end. -/
theorem rank_lt_of_advance (h : advance c s = some t) : t.rank < s.rank := by
  obtain ⟨-, hstep⟩ | ⟨j, r, hp, hj, -, rfl⟩ := advance_phaseStep_or_finish h
  · have := hstep.nearer
    simp only [State.rank, hstep.job, hstep.substep]
    omega
  · obtain ⟨q, hidle, -, hnone, -⟩ | ⟨v, rfl, hlt, hf⟩ := finish_ends_or_nextSubstep c s j r
    · simp [State.rank, hidle, hnone, hp, Phase.transitionsLeft]
    · simp only [State.rank, hf, State.nextSubstep_phase, State.nextSubstep_job,
        State.nextSubstep_substep, hj, hp, Phase.transitionsLeft, if_true]
      omega

/-- A run with enough transitions ends where none is enabled. -/
theorem advance_run_eq_none {n : Nat} (h : s.rank ≤ n) : advance c (run c n s) = none := by
  induction n generalizing s with
  | zero =>
    cases ha : advance c s with
    | none => exact ha
    | some t =>
      have := rank_lt_of_advance ha
      omega
  | succ n ih =>
    cases ha : advance c s with
    | none => rwa [run_of_none ha]
    | some t =>
      have := rank_lt_of_advance ha
      rw [run_of_some ha]
      exact ih (by omega)

/-- R157 and assumption 11: the engine stops only where no transition is enabled. -/
theorem advance_settleDown (c : Config) (s : State) : advance c (settleDown c s) = none :=
  advance_run_eq_none (rank_le_runFuel s)

/-- More transitions than are enabled change nothing. -/
theorem run_eq_run {n m : Nat} (hn : s.rank ≤ n) (hm : s.rank ≤ m) : run c n s = run c m s := by
  induction n generalizing s m with
  | zero =>
    obtain ha : advance c s = none := by simpa using advance_run_eq_none (c := c) hn
    rw [run_of_none ha, run_of_none ha]
  | succ n ih =>
    cases ha : advance c s with
    | none => rw [run_of_none ha, run_of_none ha]
    | some t =>
      have := rank_lt_of_advance ha
      obtain ⟨m, rfl⟩ : ∃ k, m = k + 1 := Nat.exists_eq_add_one.mpr (by omega)
      rw [run_of_some ha, run_of_some ha]
      exact ih (by omega) (by omega)

theorem settleDown_of_none (h : advance c s = none) : settleDown c s = s := run_of_none h

/-- The engine comes to the same from the state after a transition. -/
theorem settleDown_of_some (h : advance c s = some t) : settleDown c s = settleDown c t := by
  have := rank_lt_of_advance h
  have := rank_le_runFuel s
  rw [settleDown, settleDown, ← run_of_some h]
  exact run_eq_run (by omega) (by omega)

theorem settleDown_eq_self_iff : settleDown c s = s ↔ advance c s = none := by
  refine ⟨fun h => ?_, settleDown_of_none⟩
  rw [← h]
  exact advance_settleDown c s

/-- A property that every transition keeps holds where the engine stops. -/
theorem settleDown_preserves {P : State → Prop} (hstep : ∀ s s', P s → advance c s = some s' → P s')
    (h : P s) : P (settleDown c s) :=
  run_preserves hstep _ _ h

/-- The engine comes to what it comes to from a later state of its run, when f keeps every transition. -/
theorem settleDown_of_run {d : Config} {f : State → State}
    (hf : ∀ s s', advance c s = some s' → advance d (f s) = some (f s')) (s : State) :
    settleDown d (f (settleDown c s)) = settleDown d (f s) :=
  settleDown_preserves (P := fun t => settleDown d (f t) = settleDown d (f s))
    (fun t t' h ha => by rw [← h, settleDown_of_some (hf t t' ha)]) rfl

end Runs
end Sys2Proof.Machine
end

section
/-! PROOFS. What an operation does in an idle engine with any configuration: it starts a transaction, is answered at
once, or shows a result (R90, R91, R119, R150, R170 to R178, R208). -/

namespace Sys2Proof.Machine

section Operations

variable {c : Config} {s t u : State} {i : Instr} {j : Job} {x : Xact} {v : Substep} {a : Nat}

/-- The engine just after it has accepted an operation that makes a transaction: `accepted`, and an `EXECUTE` within its
bounds (R160). -/
def launched (c : Config) (s : State) : Instr → Option State
  | .execute x => if x.wellFormed then some (s.start (.execute x)) else none
  | i => accepted c s i

/-- The operation i has been accepted in s as j, with v in `SUBSTEP` and a in `ARG`. -/
structure Launch (c : Config) (i : Instr) (s : State) (j : Job) (v : Substep) (a : Nat) : Prop where
  job : Instr.toJob i = some j
  /-- R27, R178: only `BEGIN` writes `SUBSTEP`. -/
  substep : v = if j = .beginSeq then .identify else s.substep
  /-- R28: only `SETHUM` writes `ARG`. -/
  arg : j ≠ .setHum → a = s.arg
  /-- R28, R177: the operand has passed the range check and has `ARG_WIDTH` bits. -/
  setHum : j = .setHum → ∃ b, i = .setHum b ∧ a = argBits c b ∧ humInRange a = true
  /-- R160. -/
  bounds : ∀ x, j = .execute x → x.wellFormed = true

/-- s with j in `ASSEMBLE`, v in `SUBSTEP` and a in `ARG`. -/
def State.startWith (s : State) (j : Job) (v : Substep) (a : Nat) : State :=
  ({ s with substep := v, arg := a } : State).start j

theorem launched_execute (c : Config) (s : State) (x : Xact) :
    launched c s (.execute x) = if x.wellFormed then some (s.start (.execute x)) else none := rfl

theorem launched_eq_accepted (hx : ∀ x, i ≠ .execute x) : launched c s i = accepted c s i := by
  cases i
  case execute x => exact absurd rfl (hx x)
  all_goals rfl

@[simp] theorem startWith_job (s : State) (j : Job) (v : Substep) (a : Nat) :
    (s.startWith j v a).job = some j := rfl

theorem launched_eq_startWith (h : launched c s i = some u) :
    ∃ j v a, Launch c i s j v a ∧ u = s.startWith j v a := by
  cases i <;> simp only [launched, accepted, accepted.guarded, Option.ite_none_left_eq_some,
    Option.ite_none_right_eq_some, Option.some.injEq, reduceCtorEq] at h
  case setHum a =>
    exact ⟨_, s.substep, argBits c a, ⟨rfl, rfl, by simp, fun _ => ⟨a, rfl, rfl, h.1⟩, by simp⟩,
      h.2.2.symm⟩
  case execute x =>
    exact ⟨_, s.substep, s.arg, ⟨rfl, rfl, fun _ => rfl, by simp, by simpa using h.1⟩, h.2.symm⟩
  case meas | measRaw =>
    exact ⟨_, s.substep, s.arg, ⟨rfl, rfl, fun _ => rfl, by simp, by simp⟩, h.2.symm⟩
  case beginSeq => exact ⟨_, .identify, s.arg, ⟨rfl, rfl, fun _ => rfl, by simp, by simp⟩, h.symm⟩
  case ident | feat | init =>
    exact ⟨_, s.substep, s.arg, ⟨rfl, rfl, fun _ => rfl, by simp, by simp⟩, h.symm⟩

/-- An idle engine runs the transaction it has accepted (R170, assumption 11). -/
theorem operationIn_of_launched (hb : s.busy = false) (h : launched c s i = some u) :
    operationIn c i s = .next (settleDown c u) := by
  cases i <;> simp only [launched, accepted, accepted.guarded, Option.ite_none_left_eq_some,
    Option.ite_none_right_eq_some, Option.some.injEq, reduceCtorEq] at h
  case setHum a =>
    obtain ⟨hr, hready, rfl⟩ := h
    simp [operationIn, setHumIn, hb, hr, whenReady, hready, State.runJob]
  case execute x =>
    obtain ⟨hx, rfl⟩ := h
    simp [operationIn, executeIn, hb, hx, State.runJob]
  case meas =>
    obtain ⟨hready, rfl⟩ := h
    simp [operationIn, measIn, hb, whenReady, hready, State.runJob]
  case measRaw =>
    obtain ⟨hready, rfl⟩ := h
    simp [operationIn, measRawIn, hb, whenReady, hready, State.runJob]
  case ident | feat | init | beginSeq => exact h ▸ whenIdle_idle hb

theorem exec_of_launched (hb : s.busy = false) (h : launched Config.sg33 s i = some u) :
    exec i s = .next (settleDown Config.sg33 u) := by
  rw [← operationIn_sg33]
  exact operationIn_of_launched hb h

/-- What an operation that starts no transaction has done in an idle engine. -/
inductive Answered (c : Config) (i : Instr) (s t : State) : Prop
  /-- R177, R208: `SETHUM` out of range. -/
  | inputRange (b : Nat) (isSetHum : i = .setHum b) (outOfRange : humInRange (argBits c b) = false)
      (result : t = (s.latchArg (argBits c b)).reply (failResponse .inputRange))
  /-- R91, R119: the checksum port and the reserved codes. -/
  | reply (k : Byte) (r : Response) (selectable : i.hostSelectable = true)
      (noJob : Instr.toJob i = none) (cause : r.ok = false → r.cause = .refused)
      (result : t = ({ s with cacc := k } : State).reply r)
  /-- The internal operations (assumption 14). -/
  | show (tx : List Byte) (k : Byte) (n : BitVec 3) (l : List Check) (shown : List Event) (z : Value)
      (internal : i.hostSelectable = false) (noJob : Instr.toJob i = none)
      (trace : shown = s.out ++ traceEvents c l)
      (result : t =
        ({ s with txbuf := tx, acc := k, bitcnt := n, out := shown } : State).emit (.result z))

theorem answered_of_not_launched (hb : s.busy = false) (hl : launched c s i = none)
    (h : operationIn c i s = .next t) : Answered c i s t := by
  have hnil : s.out = s.out ++ traceEvents c [] := by simp [traceEvents]
  cases i
  case ident | feat | init | beginSeq => cases hl
  case meas | measRaw =>
    have hready : c.uninitPolicy = .refuse ∧ s.ready = false := by
      simpa [launched, accepted, accepted.guarded] using hl
    simp [operationIn, measIn, measRawIn, hb, whenReady, hready] at h
  case setHum b =>
    cases hr : humInRange (argBits c b) with
    | false =>
      simp only [operationIn, setHumIn, whenIdle_idle hb, hr] at h
      cases h
      exact .inputRange b rfl hr rfl
    | true =>
      have hready : c.uninitPolicy = .refuse ∧ s.ready = false := by
        simpa [launched, accepted, accepted.guarded, hr] using hl
      simp [operationIn, setHumIn, hb, hr, whenReady, hready] at h
  case execute x =>
    rw [launched, ite_eq_right_iff] at hl
    have hx : x.wellFormed = false := Bool.eq_false_of_not_eq_true fun hn => nomatch hl hn
    simp [operationIn, executeIn, hb, hx] at h
  case crcClr | crcUpd | crcRd =>
    cases (whenIdle_idle hb).symm.trans h
    exact .reply _ _ rfl rfl (fun hf => by cases hf) rfl
  case reserved7 | reservedB | reservedC | reservedD | reservedE | reservedF =>
    cases (whenIdle_idle hb).symm.trans h
    exact .reply s.cacc _ rfl rfl (fun _ => rfl) rfl
  case frameVal | wordChk =>
    cases h
    exact .show s.txbuf _ _ _ _ _ rfl rfl rfl rfl
  all_goals
    cases h
    exact .show _ _ _ [] _ _ rfl rfl hnil rfl

/-- R90, R213: only an operand beyond the bounds, a busy engine or the policy is refused, and no host operation at the
default policy. -/
theorem exec_host_idle_eq_next (hb : s.busy = false) (hi : i.hostSelectable = true) :
    ∃ t, exec i s = .next t := by
  cases i <;> simp only [Instr.hostSelectable, Bool.false_eq_true] at hi
  case setHum b =>
    cases hr : humInRange (argBits Config.sg33 b) with
    | true => exact ⟨_, exec_setHum_idle hb hr⟩
    | false => exact ⟨_, exec_setHum_outOfRange hb hr⟩
  case meas => exact ⟨_, exec_meas_idle hb⟩
  case measRaw => exact ⟨_, exec_measRaw_idle hb⟩
  all_goals exact ⟨_, whenIdle_idle hb⟩

/-- The three things an operation can do in an idle engine. -/
theorem operationIn_idle_cases (hb : s.busy = false) (h : operationIn c i s = .next t) :
    (∃ u, launched c s i = some u ∧ t = settleDown c u) ∨ Answered c i s t := by
  cases hl : launched c s i with
  | some u =>
    cases (operationIn_of_launched hb hl).symm.trans h
    exact .inl ⟨u, rfl, rfl⟩
  | none =>
    refine .inr (answered_of_not_launched hb hl h)

/-- What a step without reset does, of an engine with any configuration (R32, R230, R236). -/
theorem stepIn_cases (h0 : s.rst = none) (h : stepIn c s = .next t) :
    c.wellFormed = true ∧ s.sequencerOk = true ∧
      ((s.busy = true ∧ t = settleDown c s) ∨ (s.busy = false ∧ s.reqs = [] ∧ t = s) ∨
        ∃ q qs, s.busy = false ∧ s.reqs = q :: qs ∧
          operationIn c (decodeRequest q) { s with reqs := qs } = .next t) := by
  obtain ⟨hc, h⟩ := whenGolden_eq_next h
  simp only [stepWith, h0] at h
  split at h
  · cases h
  next hseq =>
  refine ⟨hc, by simpa using hseq, ?_⟩
  cases hb : s.busy with
  | true => exact .inl ⟨rfl, by simpa [hb] using h.symm⟩
  | false =>
    cases hq : s.reqs with
    | nil => exact .inr (.inl ⟨rfl, rfl, by simpa [hb, hq] using h.symm⟩)
    | cons q qs => exact .inr (.inr ⟨q, qs, rfl, rfl, by simpa [hb, fetch_of_cons hq] using h⟩)

/-- R231: the reset input wins. -/
theorem stepIn_of_rst {k : Nat} (h0 : s.rst = some k) (h : stepIn c s = .next t) :
    t = (s.beforeReset c k).resetEvent c := by
  obtain ⟨-, h⟩ := whenGolden_eq_next h
  simp only [stepWith, h0, Host.Outcome.next.injEq] at h
  exact h.symm

/-- R236: an operation in progress goes on. -/
theorem stepIn_of_busy (hc : c.wellFormed = true) (h0 : s.rst = none) (h1 : s.sequencerOk = true)
    (h2 : s.busy = true) : stepIn c s = .next (settleDown c s) := by
  simp [stepIn_of_wellFormed hc, stepWith, h0, h1, h2]

/-- R32: an idle engine accepts the next request. -/
theorem stepIn_of_request {q : Request} {qs : List Request} (hc : c.wellFormed = true)
    (h0 : s.rst = none) (h1 : s.sequencerOk = true) (h2 : s.busy = false) (h3 : s.reqs = q :: qs) :
    stepIn c s = operationIn c (decodeRequest q) { s with reqs := qs } := by
  rw [stepIn_of_wellFormed hc, stepWith, fetch_of_cons h3]
  simp [h0, h1, h2]

/-- R230: an idle engine without a request rests. -/
theorem stepIn_of_rest (hc : c.wellFormed = true) (h0 : s.rst = none) (h1 : s.sequencerOk = true)
    (h2 : s.busy = false) (h3 : s.reqs = []) : stepIn c s = .next s := by
  simp [stepIn_of_wellFormed hc, stepWith, h0, h1, h2, h3]

/-- An operation whose first transaction is x starts it, unless the policy of R213 turns it away. -/
theorem launched_of_firstXact (h : firstXact c i = some x)
    (hpolicy : c.uninitPolicy = .execute ∨ s.ready = true) :
    ∃ j v a, launched c s i = some (s.startWith j v a) ∧ Launch c i s j v a ∧ j.xact v a = x := by
  have hready : ¬ (c.uninitPolicy = .refuse ∧ s.ready = false) := by
    rintro ⟨hp, hr⟩
    simp [hp, hr] at hpolicy
  have hl : ∃ u, launched c s i = some u := by
    cases i <;> simp only [firstXact, Option.ite_none_right_eq_some, reduceCtorEq] at h <;>
      simp [launched, accepted, accepted.guarded, hready, h]
  obtain ⟨u, hu⟩ := hl
  obtain ⟨j, v, a, hlaunch, rfl⟩ := launched_eq_startWith hu
  refine ⟨j, v, a, hu, hlaunch, ?_⟩
  obtain ⟨hj, hv, -, hset, -⟩ := hlaunch
  cases i <;> cases hj <;> simp only [firstXact, Option.ite_none_right_eq_some] at h
  case beginSeq =>
    subst hv
    exact Option.some.inj h
  case setHum b =>
    obtain ⟨_, ⟨⟩, rfl, -⟩ := hset rfl
    exact Option.some.inj h.2
  case execute y => exact Option.some.inj h.2
  all_goals exact Option.some.inj h

end Operations
end Sys2Proof.Machine
end

section
/-! PROOFS. The invariant of the engine between two steps: it holds after every reset, each transition keeps what it
needs, and a run ends where the engine is idle or waits (R26, R29, R30, R157). -/

namespace Sys2Proof.Machine

section Invariant

variable {c : Config} {s t u : State} {i : Instr} {j : Job} {v : Substep} {a n : Nat}

/-- What holds of an engine with configuration c at every moment of a run: the invariant but for the place where the engine
stops, and the frame in `TXBUF` once the transaction has been assembled (R151). -/
structure RunInv (c : Config) (s : State) : Prop where
  sequencer : s.sequencerOk = true
  rxBound : s.rxbuf.length ≤ 9
  idleEmpty : s.phase = .idle → s.txbuf = [] ∧ s.rxbuf = []
  frame : ∀ j, s.job = some j → s.phase ≠ .assemble →
    s.txbuf = cmdAsm c (j.xact s.substep s.arg).code (j.xact s.substep s.arg).payload
  readWords : ∀ j, s.job = some j → s.phase = .read → 1 ≤ (j.xact s.substep s.arg).words
  bounds : ∀ x, s.job = some (.execute x) → x.wellFormed = true
  argWidth : s.arg < 2 ^ c.argWidth
  inRange : s.job = some .setHum → humInRange s.arg = true

theorem State.Inv.runInv (h : s.Inv c) : RunInv c s :=
  ⟨h.sequencer, h.rxBound, h.idleEmpty, fun j hj _ => h.frame j hj, h.readWords, h.bounds, h.argWidth,
    h.inRange⟩

/-- R160, R170: the transactions of the commands are within the bounds, and of `EXECUTE` only one that is runs. -/
theorem Job.xact_wellFormed (h : ∀ x, j = .execute x → x.wellFormed = true) (v : Substep) (a : Nat) :
    (j.xact v a).wellFormed = true := by
  cases j
  case beginSeq => cases v <;> rfl
  case execute x => exact h x rfl
  all_goals rfl

theorem Xact.wellFormed_iff (x : Xact) : x.wellFormed = true ↔ x.payload.length ≤ 1 ∧ x.words ≤ 3 := by
  simp [Xact.wellFormed, Config.maxGroups, Config.maxWords]

/-- The transaction in progress is within the bounds (R160). -/
theorem RunInv.xact_bounds (h : RunInv c s) (hj : s.job = some j) :
    (j.xact s.substep s.arg).payload.length ≤ 1 ∧ (j.xact s.substep s.arg).words ≤ 3 :=
  (Xact.wellFormed_iff _).mp (Job.xact_wellFormed (fun x hx => h.bounds x (hx ▸ hj)) _ _)

/-- The end of an operation leaves an idle engine (R157). -/
theorem runInv_complete (h : s.arg < 2 ^ c.argWidth) (q : Response) : RunInv c (s.complete q) :=
  ⟨rfl, Nat.zero_le 9, fun _ => ⟨rfl, rfl⟩, nofun, nofun, nofun, h, nofun⟩

theorem PhaseStep.sequencerOk (h : PhaseStep s t) (hs : s.sequencerOk = true)
    (hp : s.phase ≠ .respond) : t.sequencerOk = true := by
  obtain ⟨hphase, hjob, hpend⟩ := sequencerOk_iff.mp hs
  have hnone : s.pending = none := Option.not_isSome_iff_eq_none.mp (mt hpend.mp hp)
  have hbusy : s.busy = true := hphase.mpr fun hidle => by
    have := h.nearer
    simp [hidle, Phase.transitionsLeft] at this
  exact sequencerOk_iff.mpr ⟨by simp [h.busy, hbusy, h.notIdle], by rw [h.job, h.busy, hjob],
    h.pending hnone⟩

theorem RunInv.finish (h : RunInv c s) (hj : s.job = some j) (r : XactResult) :
    RunInv c (s.finish c j r) := by
  obtain ⟨words, -, -, hf⟩ | ⟨words, -, -, hf⟩ | ⟨b, q, -, hf⟩ | ⟨v, rfl, hf⟩ := finish_cases c s j r
  · exact hf ▸ runInv_complete (s := s.storeMeas words) h.argWidth _
  · exact hf ▸ runInv_complete (s := s.storeRaw words) h.argWidth _
  · exact hf ▸ runInv_complete (s := { s with ready := b }) h.argWidth _
  · obtain ⟨-, hjob, -⟩ := sequencerOk_iff.mp h.sequencer
    have hbusy : s.busy = true := by simpa [hj] using hjob.symm
    rw [hf]
    exact ⟨sequencerOk_iff.mpr ⟨by simp [hbusy], by simpa using hjob, by simp⟩, h.rxBound, nofun,
      fun _ _ hp => absurd rfl hp, nofun, h.bounds, h.argWidth, h.inRange⟩

/-- What a transition short of `RESPOND` has to keep of itself: the bound of `RXBUF`, the frame in `TXBUF`, and the reply
words of a read. -/
theorem RunInv.of_phaseStep (h : RunInv c s) (hp : s.phase ≠ .respond) (hstep : PhaseStep s t)
    (hj : s.job = some j) (hrx : t.rxbuf.length ≤ 9)
    (hframe : t.txbuf = cmdAsm c (j.xact s.substep s.arg).code (j.xact s.substep s.arg).payload)
    (hread : t.phase = .read → 1 ≤ (j.xact s.substep s.arg).words) : RunInv c t := by
  refine ⟨hstep.sequencerOk h.sequencer hp, hrx, fun hi => absurd hi hstep.notIdle, ?_, ?_, ?_, ?_, ?_⟩
  all_goals simp only [hstep.job, hstep.substep, hstep.arg]
  · intro j' hj' _
    cases hj.symm.trans hj'
    exact hframe
  · intro j' hj' hr
    cases hj.symm.trans hj'
    exact hread hr
  · exact h.bounds
  · exact h.argWidth
  · exact h.inRange

/-- R157: every transition keeps it. -/
theorem RunInv.of_advance (h : RunInv c s) (ha : advance c s = some t) : RunInv c t := by
  obtain ⟨hp, hstep⟩ | ⟨j, r, -, hj, -, rfl⟩ := advance_phaseStep_or_finish ha
  case inr => exact h.finish hj r
  obtain ⟨j, hj, ⟨-, rfl⟩ | ⟨hw, ha⟩ | ⟨hs, ha⟩ | ⟨hr, ha⟩ | ⟨hv, rfl⟩ | ⟨hp', -⟩⟩ := advance_cases ha
  · exact h.of_phaseStep hp hstep hj h.rxBound rfl nofun
  · have hframe := h.frame j hj (by simp [hw])
    obtain ⟨ws, ⟨-, rfl⟩ | ⟨-, rfl⟩⟩ := awaitWrite_cases ha <;>
      exact h.of_phaseStep hp hstep hj h.rxBound hframe nofun
  · have hframe := h.frame j hj (by simp [hs])
    obtain ⟨n, -, ⟨-, rfl⟩ | ⟨hx, rfl⟩⟩ := awaitSleep_cases ha
    · exact h.of_phaseStep hp hstep hj h.rxBound hframe nofun
    · exact h.of_phaseStep hp hstep hj h.rxBound hframe fun _ => Nat.pos_of_ne_zero hx
  · have hframe := h.frame j hj (by simp [hr])
    obtain ⟨a, rs, -, ⟨bytes, -, hl, rfl⟩ | ⟨-, rfl⟩⟩ := awaitRead_cases ha
    · have hbound : bytes.length ≤ 9 := by
        have := (h.xact_bounds hj).2
        omega
      exact h.of_phaseStep hp hstep hj hbound hframe nofun
    · exact h.of_phaseStep hp hstep hj h.rxBound hframe nofun
  · have hframe := h.frame j hj (by simp [hv])
    obtain ⟨words, -, he⟩ | ⟨m, -, he⟩ := verify_cases c s (j.xact s.substep s.arg)
    all_goals exact h.of_phaseStep hp hstep hj (he ▸ h.rxBound) (he ▸ hframe) (he ▸ nofun)
  · exact absurd hp' hp

theorem awaitWrite_eq_none_iff {x : Xact} : s.awaitWrite x = none ↔ s.writeAnswers = [] := by
  unfold State.awaitWrite
  split <;> simp [*]

theorem awaitSleep_eq_none_iff {x : Xact} : s.awaitSleep c x = none ↔ s.wakeups = 0 := by
  unfold State.awaitSleep
  split
  · simp [*]
  · split <;> simp [*]

theorem awaitRead_eq_none_iff {x : Xact} : s.awaitRead x = none ↔ s.readAnswers = [] := by
  unfold State.awaitRead
  split
  · simp [*]
  · simp [*]
  · split <;> simp [*]

/-- R55, R157: what an enabled transition needs. -/
theorem advance_eq_none_cases :
    advance c s = none ↔ s.job = none ∨ s.phase = .idle ∨ s.awaitsAnswer ∨
      s.phase = .respond ∧ s.pending = none := by
  unfold State.awaitsAnswer
  cases hj : s.job with
  | none => simp [Machine.advance, hj]
  | some j =>
    cases hp : s.phase with
    | idle => simp [advance_idle hp]
    | assemble => simp [advance_assemble hj hp]
    | write => simp [advance_write hj hp, awaitWrite_eq_none_iff]
    | settle => simp [advance_settle hj hp, awaitSleep_eq_none_iff]
    | read => simp [advance_read hj hp, awaitRead_eq_none_iff]
    | verify => simp [advance_verify hj hp]
    | respond => simp [Machine.advance, hj, hp]

/-- R55, R157: with the sequencer's bits in order, no transition is enabled only in an idle engine and in a wait without its
answer. -/
theorem advance_eq_none_iff (hs : s.sequencerOk = true) :
    advance c s = none ↔ s.phase = .idle ∨ s.awaitsAnswer := by
  obtain ⟨hphase, hjob, hpend⟩ := sequencerOk_iff.mp hs
  have hidle : s.job = none → s.phase = .idle := fun hj =>
    not_not.mp fun hn => by simp [hj, hphase.mpr hn] at hjob
  have hrespond : ¬ (s.phase = .respond ∧ s.pending = none) := fun ⟨hp, hn⟩ => by
    simpa [hn] using hpend.mpr hp
  rw [advance_eq_none_cases]
  tauto

theorem State.awaitsAnswer.waiting (h : s.awaitsAnswer) :
    s.phase = .write ∨ s.phase = .settle ∨ s.phase = .read := by
  obtain ⟨hp, -⟩ | ⟨hp, -⟩ | ⟨hp, -⟩ := h <;> simp [hp]

/-- Where a run ends, the invariant holds. -/
theorem RunInv.inv_of_stopped (h : RunInv c s) (ha : advance c s = none) : s.Inv c := by
  have hwait : s.phase = .idle ∨ s.phase = .write ∨ s.phase = .settle ∨ s.phase = .read :=
    ((advance_eq_none_iff h.sequencer).mp ha).imp_right State.awaitsAnswer.waiting
  have hassemble : s.phase ≠ .assemble := by obtain hp | hp | hp | hp := hwait <;> simp [hp]
  have htx : s.txbuf.length ≤ 5 := by
    obtain ⟨hphase, hjob, -⟩ := sequencerOk_iff.mp h.sequencer
    cases hj : s.job with
    | none =>
      have hidle : s.phase = .idle := not_not.mp fun hn => by simp [hj, hphase.mpr hn] at hjob
      simp [(h.idleEmpty hidle).1]
    | some j =>
      have := (h.xact_bounds hj).1
      rw [h.frame j hj hassemble, cmdAsm_length]
      omega
  exact ⟨h.sequencer, hwait, htx, h.rxBound, h.idleEmpty, fun j hj => h.frame j hj hassemble,
    h.readWords, h.bounds, h.argWidth, h.inRange⟩

theorem RunInv.settleDown_inv (h : RunInv c s) : (settleDown c s).Inv c :=
  (settleDown_preserves (P := RunInv c) (fun _ _ hs ha => hs.of_advance ha) h).inv_of_stopped
    (advance_settleDown c s)

/-- An idle engine has nothing in its buffers and no operation in progress (R26, R29, R30). -/
theorem State.Inv.idle (h : s.Inv c) (hb : s.busy = false) : s.phase = .idle ∧ s.job = none := by
  obtain ⟨hphase, hjob, -⟩ := sequencerOk_iff.mp h.sequencer
  exact ⟨not_not.mp fun hn => by simp [hphase.mpr hn] at hb, by simpa [hb] using hjob⟩

/-- A transaction that has been accepted starts within the invariant. -/
theorem Launch.runInv (hl : Launch c i s j v a) (h : s.Inv c) : RunInv c (s.startWith j v a) := by
  have harg : a < 2 ^ c.argWidth := by
    by_cases hj : j = .setHum
    · obtain ⟨b, -, rfl, -⟩ := hl.setHum hj
      exact argBits_lt c b
    · rw [hl.arg hj]
      exact h.argWidth
  refine ⟨rfl, h.rxBound, nofun, fun _ _ hp => absurd rfl hp, nofun, ?_, harg, ?_⟩
  · rintro x ⟨⟩
    exact hl.bounds x rfl
  · rintro ⟨⟩
    obtain ⟨-, -, -, hr⟩ := hl.setHum rfl
    exact hr

/-- The invariant says nothing of the registers that no phase of a transaction uses, of the record, and of an `ARG` between
two operations. -/
theorem State.Inv.with_idle_registers (h : s.Inv c) (hb : s.busy = false) (ha : a < 2 ^ c.argWidth)
    (k : Byte) (o : List Event) : State.Inv c { s with cacc := k, arg := a, out := o } := by
  obtain ⟨-, hj⟩ := h.idle hb
  have hnone {x : Job} : s.job ≠ some x := by simp [hj]
  exact ⟨h.sequencer, h.waiting, h.txBound, h.rxBound, h.idleEmpty, fun _ hx => absurd hx hnone,
    fun _ hx => absurd hx hnone, h.bounds, ha, fun hx => absurd hx hnone⟩

/-- A host operation of an idle engine keeps the invariant. -/
theorem operationIn_inv (h : s.Inv c) (hb : s.busy = false) (hi : i.hostSelectable = true)
    (ho : operationIn c i s = .next t) : t.Inv c := by
  obtain ⟨u, hu, rfl⟩ | ⟨b, -, -, rfl⟩ | ⟨k, r, -, -, -, rfl⟩ | ⟨-, -, -, -, -, -, hn, -⟩ :=
    operationIn_idle_cases hb ho
  · obtain ⟨j, v, a, hl, rfl⟩ := launched_eq_startWith hu
    exact (hl.runInv h).settleDown_inv
  · exact h.with_idle_registers hb (argBits_lt c b) s.cacc _
  · exact h.with_idle_registers hb h.argWidth k _
  · simp [hi] at hn

theorem fresh_inv (c : Config) (n : Nat) : (State.fresh c n).Inv c :=
  ⟨rfl, .inl rfl, Nat.zero_le 5, Nat.zero_le 9, fun _ => ⟨rfl, rfl⟩, nofun, nofun, nofun, argBits_lt c _,
    nofun⟩

/-- R38, R230: a reset leaves the invariant whatever was in progress. -/
theorem resetEvent_inv (c : Config) (s : State) : (s.resetEvent c).Inv c :=
  ((fresh_inv c (s.resets + 1)).with_inputs none s.reqs [] 0 []).with_idle_registers rfl
    (argBits_lt c _) c.init s.out

/-- Every step that answers a next state keeps the invariant. -/
theorem stepIn_inv (h : s.Inv c) (hs : stepIn c s = .next t) : t.Inv c := by
  cases h0 : s.rst with
  | some k => exact stepIn_of_rst h0 hs ▸ resetEvent_inv c _
  | none =>
    obtain ⟨-, -, ⟨-, rfl⟩ | ⟨-, -, rfl⟩ | ⟨q, qs, hb, -, ho⟩⟩ := stepIn_cases h0 hs
    · exact h.runInv.settleDown_inv
    · exact h
    · exact operationIn_inv (h.with_inputs s.rst qs s.writeAnswers s.wakeups s.readAnswers) hb
        (decodeRequest_selectable q) ho

/-- With the default configuration a step always answers a next state, where the sequencer's bits fit together. -/
theorem step_eq_next (h : s.sequencerOk = true) : ∃ t, step s = .next t := by
  cases h0 : s.rst with
  | some k => exact ⟨_, step_of_rst h0⟩
  | none =>
    rw [← stepIn_sg33]
    cases hb : s.busy with
    | true => exact ⟨_, stepIn_of_busy sg33_wellFormed h0 h hb⟩
    | false =>
      cases hq : s.reqs with
      | nil => exact ⟨_, stepIn_of_rest sg33_wellFormed h0 h hb hq⟩
      | cons q qs =>
        rw [stepIn_of_request sg33_wellFormed h0 h hb hq, operationIn_sg33]
        exact exec_host_idle_eq_next hb (decodeRequest_selectable q)

theorem input_inv {k : Input} (h : s.Inv c) (hk : s.input k = some t) : t.Inv c := by
  obtain ⟨-, rfl⟩ := input_eq_some_iff.mp hk
  cases k <;> exact h.with_inputs _ _ _ _ _

end Invariant

/-- Settles O1: each value is one that `State.fresh` writes. -/
theorem resetStateIsIdleAndUninitialized : Obligations.ResetStateIsIdleAndUninitialized :=
  ⟨rfl, rfl, rfl, rfl, rfl, rfl, rfl, rfl, rfl⟩

/-- Settles O2: an idle engine with empty buffers and an `ARG` cut to its width meets every clause (`fresh_inv`). -/
theorem resetMeetsInvariant : Obligations.ResetMeetsInvariant :=
  ⟨fresh_inv Config.sg33 0, fresh_inv⟩

/-- Settles O3: every transition keeps `RunInv`, a run stops only where that is the invariant
(`RunInv.inv_of_stopped`), and a host operation starts such a run or is answered at once (`operationIn_inv`). -/
theorem stepKeepsInvariant : Obligations.StepKeepsInvariant := by
  refine ⟨fun s h => ?_, fun c s t h => stepIn_inv h, fun c s t i h => input_inv h⟩
  obtain ⟨t, ht⟩ := step_eq_next h.sequencer
  exact ⟨t, ht, stepIn_inv h (stepIn_sg33 s ▸ ht)⟩

end Sys2Proof.Machine
end

section
/-! PROOFS. The frame of a run: what the operation in progress leaves unchanged, and where its one response stands
(R21 to R24, R28, R33, R39, R179, R231, R236). -/

namespace Sys2Proof.Machine

section RunFrames

variable {c : Config} {s t u : State} {i : Instr} {j : Job} {v : Substep} {a n k : Nat}

/-- The operation j, in progress in s, is still in progress in t, without a response. -/
def StillRuns (j : Job) (s t : State) : Prop :=
  t.job = some j ∧ t.busy = s.busy ∧ t.ready = s.ready ∧ ∃ new, t.out = s.out ++ new ∧ NoResponse new

/-- The operation j, in progress in s, has ended in t with its response, and only `BEGIN` has written `READY`. -/
def HasEnded (j : Job) (s t : State) : Prop :=
  t.phase = .idle ∧ t.busy = false ∧ ∃ pre r, t.out = s.out ++ (pre ++ [.response r]) ∧ NoResponse pre ∧
    (t.ready = s.ready ∨ j = .beginSeq ∧ t.ready = r.ok)

/-- The engine has gone from s to t with the operation j. -/
structure Ran (j : Job) (s t : State) : Prop where
  /-- R39: `CACC` is the checksum port's. -/
  cacc : t.cacc = s.cacc
  rst : t.rst = s.rst
  /-- R236: no request is taken. -/
  reqs : t.reqs = s.reqs
  resets : t.resets = s.resets
  arg : t.arg = s.arg
  /-- R174. -/
  measPair : j ≠ .meas → t.eco2 = s.eco2 ∧ t.tvoc = s.tvoc
  /-- R175. -/
  rawPair : j ≠ .measRaw → t.rawH2 = s.rawH2 ∧ t.rawEth = s.rawEth
  /-- R27. -/
  substep : j ≠ .beginSeq → t.substep = s.substep
  outcome : StillRuns j s t ∨ HasEnded j s t

theorem Ran.refl (hj : s.job = some j) : Ran j s s :=
  ⟨rfl, rfl, rfl, rfl, rfl, fun _ => ⟨rfl, rfl⟩, fun _ => ⟨rfl, rfl⟩, fun _ => rfl,
    .inl ⟨hj, rfl, rfl, [], (List.append_nil _).symm, fun _ => List.not_mem_nil⟩⟩

/-- R179: only `BEGIN` changes `READY`. -/
theorem Ran.ready (h : Ran j s t) (hj : j ≠ .beginSeq) : t.ready = s.ready := by
  obtain ⟨-, -, hr, -⟩ | ⟨-, -, -, r, -, -, hr | ⟨hb, -⟩⟩ := h.outcome
  · exact hr
  · exact hr
  · exact absurd hb hj

theorem Ran.out (h : Ran j s t) : ∃ new, t.out = s.out ++ new := by
  obtain ⟨-, -, -, new, hout, -⟩ | ⟨-, -, pre, r, hout, -⟩ := h.outcome
  · exact ⟨new, hout⟩
  · exact ⟨_, hout⟩

/-- The handling of its result keeps the frame (R171 to R178). -/
theorem Ran.finish (h : Ran j s t) (hrun : StillRuns j s t) (r : XactResult) :
    Ran j s (t.finish c j r) := by
  obtain ⟨hj, hbusy, hready, new, hout, hnew⟩ := hrun
  have hend (q : Response) : t.out ++ [.response q] = s.out ++ (new ++ [.response q]) := by
    rw [hout, List.append_assoc]
  obtain ⟨words, rfl, -, hf⟩ | ⟨words, rfl, -, hf⟩ | ⟨b, q, hb, hf⟩ | ⟨v, rfl, hf⟩ :=
    finish_cases c t j r <;> rw [hf]
  · exact ⟨h.cacc, h.rst, h.reqs, h.resets, h.arg, fun hn => absurd rfl hn, h.rawPair, h.substep,
      .inr ⟨rfl, rfl, new, _, hend _, hnew, .inl hready⟩⟩
  · exact ⟨h.cacc, h.rst, h.reqs, h.resets, h.arg, h.measPair, fun hn => absurd rfl hn, h.substep,
      .inr ⟨rfl, rfl, new, _, hend _, hnew, .inl hready⟩⟩
  · exact ⟨h.cacc, h.rst, h.reqs, h.resets, h.arg, h.measPair, h.rawPair, h.substep,
      .inr ⟨rfl, rfl, new, _, hend _, hnew, hb.imp_left fun he => he.trans hready⟩⟩
  · exact ⟨h.cacc, h.rst, h.reqs, h.resets, h.arg, h.measPair, h.rawPair, fun hn => absurd rfl hn,
      .inl ⟨hj, hbusy, hready, new, hout, hnew⟩⟩

/-- Every transition keeps the frame (R157). -/
theorem Ran.of_advance (h : Ran j s t) (ha : advance c t = some u) : Ran j s u := by
  obtain hrun | ⟨hidle, -⟩ := h.outcome
  case inr =>
    rw [advance_idle hidle] at ha
    cases ha
  obtain ⟨hj, hbusy, hready, new, hout, hnew⟩ := id hrun
  obtain ⟨hp, hstep⟩ | ⟨j', r, -, hj', -, rfl⟩ := advance_phaseStep_or_finish ha
  · obtain ⟨⟨he, ht, hh, hm⟩, hr, hc⟩ := hstep.sameArch
    obtain ⟨hrst, hreqs, hresets⟩ := hstep.ports
    obtain ⟨more, hmore, hno⟩ := hstep.out
    exact ⟨hc.trans h.cacc, hrst.trans h.rst, hreqs.trans h.reqs, hresets.trans h.resets,
      hstep.arg.trans h.arg, fun hn => (h.measPair hn).imp he.trans ht.trans,
      fun hn => (h.rawPair hn).imp hh.trans hm.trans, fun hn => hstep.substep.trans (h.substep hn),
      .inl ⟨hstep.job.trans hj, hstep.busy.trans hbusy, hr.trans hready, new ++ more,
        by rw [hmore, hout, List.append_assoc],
        fun q hq => (List.mem_append.mp hq).elim (hnew q) (hno q)⟩⟩
  · cases hj.symm.trans hj'
    exact h.finish hrun r

theorem ran_run (hj : s.job = some j) (c : Config) (n : Nat) : Ran j s (run c n s) :=
  run_preserves (P := Ran j s) (fun _ _ h ha => h.of_advance ha) n s (.refl hj)

theorem ran_settleDown (hj : s.job = some j) (c : Config) : Ran j s (settleDown c s) :=
  ran_run hj c runFuel

/-- R157: the sequencer's bits keep fitting together. -/
theorem sequencerOk_of_advance (h : s.sequencerOk = true) (ha : advance c s = some t) :
    t.sequencerOk = true := by
  obtain ⟨hp, hstep⟩ | ⟨j, r, -, hj, -, rfl⟩ := advance_phaseStep_or_finish ha
  · exact hstep.sequencerOk h hp
  · obtain ⟨-, hjob, -⟩ := sequencerOk_iff.mp h
    have hbusy : s.busy = true := by simpa [hj] using hjob.symm
    obtain ⟨words, -, -, hf⟩ | ⟨words, -, -, hf⟩ | ⟨b, q, -, hf⟩ | ⟨v, -, hf⟩ := finish_cases c s j r <;>
      rw [hf]
    case inr.inr.inr => exact sequencerOk_iff.mpr ⟨by simp [hbusy], by simpa using hjob, by simp⟩
    all_goals rfl

theorem settleDown_sequencerOk (h : s.sequencerOk = true) : (settleDown c s).sequencerOk = true :=
  settleDown_preserves (P := fun t => t.sequencerOk = true) (fun _ _ => sequencerOk_of_advance) h

/-- R26: with the sequencer's bits in order, a busy engine has an operation in progress. -/
theorem exists_job_of_busy (h : s.sequencerOk = true) (hb : s.busy = true) : ∃ j, s.job = some j := by
  obtain ⟨-, hjob, -⟩ := sequencerOk_iff.mp h
  exact Option.isSome_iff_exists.mp (hjob.trans hb)

theorem idle_of_not_busy (h : s.sequencerOk = true) (hb : s.busy = false) : s.phase = .idle := by
  obtain ⟨hphase, -, -⟩ := sequencerOk_iff.mp h
  exact not_not.mp fun hn => by simp [hphase.mpr hn] at hb

/-- What a step that goes on with an operation does. -/
theorem step_of_busy_ran (h0 : s.rst = none) (hb : s.busy = true) (h : step s = .next t) :
    ∃ j, s.job = some j ∧ t = settleDown Config.sg33 s ∧ Ran j s t := by
  obtain ⟨-, hseq, ⟨-, rfl⟩ | ⟨hn, -⟩ | ⟨_, _, hn, -⟩⟩ := stepIn_cases h0 (stepIn_sg33 s ▸ h)
  · obtain ⟨j, hj⟩ := exists_job_of_busy hseq hb
    exact ⟨j, hj, rfl, ran_settleDown hj _⟩
  · simp [hb] at hn
  · simp [hb] at hn

/-- What an operation that makes a transaction does in an idle engine, `SETHUM` out of range included: it runs from where it
has been accepted. -/
theorem operationIn_of_toJob (hj : Instr.toJob i = some j) (hb : s.busy = false)
    (h : operationIn c i s = .next t) :
    (∃ v a, Launch c i s j v a ∧ t = settleDown c (s.startWith j v a) ∧ Ran j (s.startWith j v a) t) ∨
      ∃ b, i = .setHum b ∧ t = (s.latchArg (argBits c b)).reply (failResponse .inputRange) := by
  obtain ⟨u, hu, rfl⟩ | ⟨b, hi, -, rfl⟩ | ⟨k, r, -, hn, -, -⟩ | ⟨-, -, -, -, -, -, -, hn, -, -⟩ :=
    operationIn_idle_cases hb h
  · obtain ⟨j', v, a, hl, rfl⟩ := launched_eq_startWith hu
    cases hj.symm.trans hl.job
    exact .inl ⟨v, a, hl, rfl, ran_settleDown rfl c⟩
  · exact .inr ⟨b, hi, rfl⟩
  · cases hj.symm.trans hn
  · cases hj.symm.trans hn

/-- The instruction of an operation other than `EXECUTE` and `SETHUM` is the operation's own. -/
theorem toJob_eq_iff :
    (Instr.toJob i = some .meas ↔ i = .meas) ∧ (Instr.toJob i = some .measRaw ↔ i = .measRaw) ∧
      (Instr.toJob i = some .beginSeq ↔ i = .beginSeq) := by
  cases i <;> simp [Instr.toJob]

/-- R236: a busy engine holds every operation that has a select code. -/
theorem exec_host_busy (hi : i.hostSelectable = true) (hb : s.busy = true) :
    exec i s = .next (s.hold i) := by
  cases i <;> simp only [Instr.hostSelectable, Bool.false_eq_true] at hi <;> exact whenIdle_busy hb

theorem beforeReset_of_not_busy (hb : s.busy = false) (c : Config) (k : Nat) :
    s.beforeReset c k = s ∨ ∃ q qs u m, s.reqs = q :: qs ∧
      accepted c { s with reqs := qs } (decodeRequest q) = some u ∧ s.beforeReset c k = run c m u := by
  unfold State.beforeReset
  rw [hb, if_neg Bool.false_ne_true]
  cases hq : s.reqs with
  | nil => exact .inl (by cases k <;> simp [fetch_of_nil hq])
  | cons q qs =>
    rw [fetch_of_cons hq]
    cases k with
    | zero => exact .inl rfl
    | succ m =>
      cases hu : accepted c { s with reqs := qs } (decodeRequest q) with
      | none => exact .inl (by simp [hu])
      | some u => exact .inr ⟨q, qs, u, m, rfl, hu, by simp [hu]⟩

/-- R231: what the engine has issued when a reset lands, and that none of it is a response while the operation is in
progress. -/
theorem beforeReset_out (c : Config) (s : State) (k : Nat) :
    ∃ new, (s.beforeReset c k).out = s.out ++ new ∧
      ((s.beforeReset c k).busy = true → NoResponse new) := by
  have hsame : ∃ new, s.out = s.out ++ new ∧ (s.busy = true → NoResponse new) :=
    ⟨[], (List.append_nil _).symm, fun _ _ => List.not_mem_nil⟩
  have hran {j : Job} {u t : State} (h : Ran j u t) (hu : u.out = s.out) :
      ∃ new, t.out = s.out ++ new ∧ (t.busy = true → NoResponse new) := by
    obtain ⟨-, -, -, new, hout, hnew⟩ | ⟨-, hb, pre, r, hout, -⟩ := h.outcome
    · exact ⟨new, hu ▸ hout, fun _ => hnew⟩
    · exact ⟨_, hu ▸ hout, fun hn => by simp [hb] at hn⟩
  cases hb : s.busy with
  | true =>
    unfold State.beforeReset
    rw [hb, if_pos rfl]
    cases hj : s.job with
    | none => rwa [run_of_none (by simp [advance, hj])]
    | some j => exact hran (ran_run hj c k) rfl
  | false =>
    obtain he | ⟨q, qs, u, m, -, hu, he⟩ := beforeReset_of_not_busy hb c k <;> rw [he]
    · exact hsame
    · obtain ⟨j, v, a, -, rfl⟩ := accepted_eq_start hu
      exact hran (ran_run (State.start_job _ j) c m) rfl

end RunFrames

/-- Settles O6: the reset event writes the reset values, and what has been issued before it is that of a run, in which a
response ends the operation (`beforeReset_out`). -/
theorem resetEventAbandonsTheOperation : Obligations.ResetEventAbandonsTheOperation := by
  intro s k hk
  obtain ⟨new, hout, hnew⟩ := beforeReset_out Config.sg33 s k
  refine ⟨_, new, step_of_rst hk, resetEvent_inv _ _, rfl, rfl, rfl, rfl, rfl, rfl, rfl,
    ⟨rfl, rfl, rfl, rfl⟩, rfl, rfl, rfl, hout, hout, fun hb => ?_, ?_⟩
  · refine List.filter_eq_nil_iff.mpr fun e he hr => ?_
    cases e <;> simp only [Event.isResponse, Bool.false_eq_true] at hr
    exact hnew hb _ he
  · rintro rfl
    simpa using hout

/-- Settles O7: a run takes no request (`Ran.reqs`), and every operation with a select code is held by a busy engine
(`whenIdle`). -/
theorem requestWhileBusyIsHeld : Obligations.RequestWhileBusyIsHeld := by
  refine ⟨fun s h0 hseq hb => ?_, fun i r s hi hb => ?_⟩
  · obtain ⟨j, hj⟩ := exists_job_of_busy hseq hb
    exact ⟨_, step_of_busy h0 hseq hb, (ran_settleDown hj _).reqs⟩
  · rw [← hold_of_encode hi]
    exact exec_host_busy (by rw [← encode_isSome, hi, Option.isSome_some]) hb

/-- Settles O9: the transitions of `advance_cases`, each with its two phases. -/
theorem phaseTransitionsAreThoseOfTheTable : Obligations.PhaseTransitionsAreThoseOfTheTable := by
  intro c s t h
  obtain ⟨j, -, ⟨hp, rfl⟩ | ⟨hp, h⟩ | ⟨hp, h⟩ | ⟨hp, h⟩ | ⟨hp, rfl⟩ | ⟨hp, r, -, rfl⟩⟩ := advance_cases h <;>
    rw [hp]
  · simp
  · obtain ⟨ws, ⟨-, rfl⟩ | ⟨-, rfl⟩⟩ := awaitWrite_cases h <;> simp
  · obtain ⟨n, -, ⟨-, rfl⟩ | ⟨-, rfl⟩⟩ := awaitSleep_cases h <;> simp
  · obtain ⟨a, rs, -, ⟨bytes, -, -, rfl⟩ | ⟨-, rfl⟩⟩ := awaitRead_cases h <;> simp
  · obtain ⟨words, -, he⟩ | ⟨m, -, he⟩ := verify_cases c s (j.xact s.substep s.arg) <;> simp [he]
  · obtain ⟨q, hidle, -⟩ | ⟨v, -, -, hf⟩ := finish_ends_or_nextSubstep c s j r
    · simp [hidle]
    · simp [hf]

/-- Settles O54: a run changes `READY` only where it ends `BEGIN` (`Ran.outcome`), and an operation answered at once
does not change it. -/
theorem onlyBeginChangesReady : Obligations.OnlyBeginChangesReady := by
  intro s t _ h0 h
  have hran {j : Job} {u : State} (hr : Ran j u t) (hu : u.ready = s.ready) (hw : s.worksOn j) :
      t.ready = s.ready ∨
        s.worksOn .beginSeq ∧ ∃ r, t.out.getLast? = some (.response r) ∧ t.ready = r.ok := by
    obtain ⟨-, -, hready, -⟩ | ⟨-, -, pre, r, hout, -, hready | ⟨rfl, hready⟩⟩ := hr.outcome
    · exact .inl (hready.trans hu)
    · exact .inl (hready.trans hu)
    · exact .inr ⟨hw, r, by simp [hout], hready⟩
  obtain ⟨-, hseq, ⟨hb, rfl⟩ | ⟨-, -, rfl⟩ | ⟨q, qs, hb, hq, ho⟩⟩ := stepIn_cases h0 (stepIn_sg33 s ▸ h)
  · obtain ⟨j, hj⟩ := exists_job_of_busy hseq hb
    exact hran (ran_settleDown hj _) rfl (.inl ⟨hb, hj⟩)
  · exact .inl rfl
  · obtain ⟨u, hu, rfl⟩ | ⟨b, -, -, rfl⟩ | ⟨k, r, -, -, -, rfl⟩ | ⟨-, -, -, -, -, -, hn, -⟩ :=
      operationIn_idle_cases (s := { s with reqs := qs }) hb ho
    · obtain ⟨j, v, a, hl, rfl⟩ := launched_eq_startWith hu
      exact hran (ran_settleDown rfl _) rfl (.inr ⟨hb, q, qs, hq, hl.job⟩)
    · exact .inl rfl
    · exact .inl rfl
    · simp [decodeRequest_selectable] at hn

/-- Settles O60: both kinds of step are a run of the operation (`Ran`), from where it has been accepted or from where it
waits; `SETHUM` out of range only latches its operand. -/
theorem transactionFrame : Obligations.TransactionFrame := by
  refine ⟨fun i s t ⟨j, hj⟩ hb h => ?_, fun s t h0 hb h => ?_⟩
  · obtain ⟨hmeas, hraw, hbegin⟩ := toJob_eq_iff (i := i)
    rw [hj, Option.some.injEq] at hmeas hraw hbegin
    rw [← operationIn_sg33] at h
    obtain ⟨v, a, hl, -, hr⟩ | ⟨b, rfl, rfl⟩ := operationIn_of_toJob hj hb h
    · refine ⟨hr.cacc, hr.rst, hr.reqs, hr.resets, fun hi => hr.measPair (mt hmeas.mp hi),
        fun hi => hr.rawPair (mt hraw.mp hi), fun hi => ?_, fun hi => hr.arg.trans (hl.arg fun he => ?_)⟩
      · have hne := mt hbegin.mp hi
        exact ⟨hr.ready hne, (hr.substep hne).trans (hl.substep.trans (if_neg hne))⟩
      · obtain ⟨b, hi', -, -⟩ := hl.setHum he
        exact hi b hi'
    · exact ⟨rfl, rfl, rfl, rfl, fun _ => ⟨rfl, rfl⟩, fun _ => ⟨rfl, rfl⟩, fun _ => ⟨rfl, rfl⟩,
        fun hi => absurd rfl (hi b)⟩
  · obtain ⟨j, hj, -, hr⟩ := step_of_busy_ran h0 hb h
    rw [hj]
    simp only [ne_eq, Option.some.injEq]
    exact ⟨hr.cacc, hr.rst, hr.reqs, hr.resets, hr.arg, hr.measPair, hr.rawPair,
      fun hn => ⟨hr.ready hn, hr.substep hn⟩⟩

end Sys2Proof.Machine
end

section
/-! PROOFS. The operations that make no transaction, each with everything it changes, and what is refused (R91, R111 to
R115, R119, R130 to R136, R160, R176, R213). -/

namespace Sys2Proof.Machine

section SingleOperations

variable {c : Config} {s t : State} {i : Instr}

/-- At the default width `arg[7:0]` is the operand itself cut to a byte (R119). -/
theorem argByte_sg33 (arg : Nat) : argByte Config.sg33 arg = BitVec.ofNat 8 arg := by
  apply BitVec.eq_of_toNat_eq
  rw [argByte, argBits, BitVec.toNat_ofNat, BitVec.toNat_ofNat]
  exact Nat.mod_mod_of_dvd arg (Nat.pow_dvd_pow 2 (by decide : 8 ≤ 32))

/-- R208: out of range, the operand is latched and the failure is the one thing issued. -/
theorem operationIn_setHum_outOfRange {arg : Nat} (hb : s.busy = false) (h : 256000 < arg)
    (hw : arg < 2 ^ c.argWidth) :
    operationIn c (.setHum arg) s = .next { s with
      arg := arg, out := s.out ++ [.response ⟨false, .inputRange, []⟩] } := by
  have hr : humInRange arg = false := Bool.eq_false_of_not_eq_true fun hn => by
    have := (humInRange_iff arg).mp hn
    omega
  rw [operationIn, setHumIn, whenIdle_idle hb, argBits_of_lt hw, if_neg (by simp [hr])]
  rfl

/-- Of the operations, only `EXECUTE` refuses operands (R160), and none refuses the configuration. -/
theorem operationIn_eq_refused {r : Refusal} (h : operationIn c i s = .refused r) :
    r = .uninitialised ∨ ∃ x, i = .execute x ∧
      (r = .engineBusy ∨ r = .operands ∧ s.busy = false ∧ x.wellFormed = false) := by
  cases i
  case execute x =>
    simp only [operationIn, executeIn] at h
    split at h
    · cases h
      exact .inr ⟨x, rfl, .inl rfl⟩
    · split at h
      · cases h
      · next hb hx => cases h; exact .inr ⟨x, rfl, .inr ⟨rfl, by simpa using hb, by simpa using hx⟩⟩
  case meas | measRaw =>
    simp only [operationIn, measIn, measRawIn, whenIdle, whenReady] at h
    split at h
    · cases h
    · split at h <;> cases h
      exact .inl rfl
  case setHum a =>
    simp only [operationIn, setHumIn, whenIdle, whenReady] at h
    split at h
    · cases h
    · split at h
      · split at h <;> cases h
        exact .inl rfl
      · cases h
  case crcBit | crcByte | crc8 | groupEnc | cmdAsm | wordChk | wordDec | frameVal | humScale => cases h
  all_goals
    simp only [operationIn, identIn, featIn, initIn, beginIn, crcClrIn, crcUpdIn, crcRdIn, reservedOp,
      whenIdle] at h
    split at h <;> cases h

theorem stepWith_ne_configuration : stepWith c (operationIn c) s ≠ .refused .configuration := by
  intro h
  unfold stepWith at h
  split at h
  · cases h
  · split at h
    · cases h
    · split at h
      · cases h
      · split at h
        · cases h
        · obtain hr | ⟨x, -, hr | ⟨hr, -⟩⟩ := operationIn_eq_refused h <;> cases hr

/-- R160 as bounds. -/
theorem Xact.wellFormed_eq_false_iff (x : Xact) :
    x.wellFormed = false ↔ 1 < x.payload.length ∨ 3 < x.words := by
  rw [← Bool.not_eq_true, Xact.wellFormed_iff]
  omega

/-- R213: with the guard open the operation runs. -/
theorem whenReady_of_open {o : Host.Outcome State Fault Refusal}
    (h : c.uninitPolicy = .execute ∨ s.ready = true) : whenReady c s o = o := by
  rw [whenReady, if_neg]
  rintro ⟨hp, hr⟩
  simp [hp, hr] at h

theorem whenReady_of_closed {o : Host.Outcome State Fault Refusal}
    (hp : c.uninitPolicy = .refuse) (hr : s.ready = false) :
    whenReady c s o = .refused .uninitialised := if_pos ⟨hp, hr⟩

/-- R26, R157: bits that do not fit together have no transition (assumption 22). -/
theorem step_of_not_sequencerOk (h0 : s.rst = none) (h : s.sequencerOk = false) :
    step s = .fault .sequencer := by
  simp [step, stepWith, h0, h]

/-- The machine's run takes its steps one after the other. -/
theorem core_run_of_step {M : Host.Core} {z z' : M.State} {n : Nat} (h : M.step z = .next z') :
    M.run (n + 1) z = M.run n z' := by
  rw [Host.Core.run, h]

/-- R32: only the select codes of `SETHUM` and `CRC8.UPD` name an operation with an operand. -/
theorem decodeRequest_ignores_operand {op : Op} (h5 : op ≠ 0x5#4) (h9 : op ≠ 0x9#4) (a b : Nat) :
    decodeRequest ⟨op, a⟩ = decodeRequest ⟨op, b⟩ := by
  obtain ⟨⟨n, hn⟩⟩ := op
  interval_cases n <;> simp at h5 h9 <;> rfl

/-- The response of a checksum port operation that has these words (R119). -/
def portResponse (words : List Word) : Event := .response ⟨true, .none, words⟩

theorem exec_crcClr (hb : s.busy = false) :
    exec .crcClr s =
      .next { s with cacc := Config.sg33.init, out := s.out ++ [portResponse []] } :=
  whenIdle_idle hb

theorem exec_crcUpd (hb : s.busy = false) (arg : Nat) :
    exec (.crcUpd arg) s = .next { s with
      cacc := crcByte Config.sg33.poly s.cacc (BitVec.ofNat 8 arg), out := s.out ++ [portResponse []] } := by
  rw [← argByte_sg33]
  exact whenIdle_idle hb

theorem exec_crcRd (hb : s.busy = false) :
    exec .crcRd s = .next { s with out := s.out ++ [portResponse [s.cacc.setWidth 16]] } :=
  whenIdle_idle hb

theorem step_crcUpd {b : Byte} {qs : List Request} (h0 : s.rst = none) (hseq : s.sequencerOk = true)
    (hb : s.busy = false) (hq : s.reqs = ⟨0x9#4, b.toNat⟩ :: qs) :
    Sys2Proof.core.step s = .next { s with
      cacc := crcByte Config.sg33.poly s.cacc b, reqs := qs, out := s.out ++ [portResponse []] } := by
  have hexec := exec_crcUpd (s := { s with reqs := qs }) hb b.toNat
  rw [BitVec.ofNat_toNat, BitVec.setWidth_eq] at hexec
  exact (step_of_request h0 hseq hb hq).trans hexec

/-- R119: one `CRC8.UPD` per byte and `CRC8.RD`, presented to an idle engine, absorb the bytes into `CACC` and answer
it. -/
theorem core_run_upd_rd (d : List Byte) (h0 : s.rst = none) (hseq : s.sequencerOk = true)
    (hb : s.busy = false) (hq : s.reqs = (d.map fun b => ⟨0x9#4, b.toNat⟩) ++ [⟨0xA#4, 0⟩]) :
    Host.Core.run Sys2Proof.core (d.length + 1) s = .next { s with
      cacc := crcFrom Config.sg33.poly s.cacc d, reqs := []
      out := s.out ++ List.replicate d.length (portResponse []) ++
        [portResponse [(crcFrom Config.sg33.poly s.cacc d).setWidth 16]] } := by
  induction d generalizing s with
  | nil =>
    have hstep : Sys2Proof.core.step s = _ := (step_of_request h0 hseq hb hq).trans (exec_crcRd hb)
    refine (core_run_of_step hstep).trans ?_
    change Host.Outcome.next _ = _
    simp
  | cons b d ih =>
    rw [List.length_cons, core_run_of_step (step_crcUpd h0 hseq hb hq)]
    refine (ih ?_ ?_ ?_ ?_).trans ?_
    case refine_5 => simp [List.replicate_succ]
    exacts [h0, hseq, hb, rfl]

end SingleOperations

/-- Settles O5: an idle engine fetches the request and runs the operation it decodes to (`step_of_request`); an ignored
operand does not enter the decoding. -/
theorem stepRunsTheEncodedInstruction : Obligations.StepRunsTheEncodedInstruction := by
  refine ⟨fun i r rs s hi h0 hseq hb hq => ?_, fun op a b rs s h5 h9 h0 hb => ?_,
    fun s h0 hseq hb hq => ?_⟩
  · obtain rfl : decodeRequest r = i := hi.elim decodeRequest_of_encode id
    exact step_of_request h0 hseq hb hq
  · cases hseq : s.sequencerOk with
    | true =>
      rw [step_of_request (s := { s with reqs := ⟨op, a⟩ :: rs }) h0 hseq hb rfl,
        step_of_request (s := { s with reqs := ⟨op, b⟩ :: rs }) h0 hseq hb rfl,
        decodeRequest_ignores_operand h5 h9 a b]
    | false =>
      exact (step_of_not_sequencerOk (s := { s with reqs := ⟨op, a⟩ :: rs }) h0 hseq).trans
        (step_of_not_sequencerOk (s := { s with reqs := ⟨op, b⟩ :: rs }) h0 hseq).symm
  · rw [← stepIn_sg33]
    exact stepIn_of_rest sg33_wellFormed h0 hseq hb hq

/-- Settles O19: the three grains are `.next` of the updated state by definition. -/
theorem checksumGrainsLeaveTheirResultInAcc : Obligations.ChecksumGrainsLeaveTheirResultInAcc :=
  fun _ _ _ _ => ⟨rfl, rfl, rfl⟩

/-- Settles O24: an idle engine runs the three port operations (`whenIdle_idle`), the operand cut to a byte
(`argByte_sg33`). -/
theorem checksumPortOperations : Obligations.ChecksumPortOperations := by
  intro arg s hb
  exact ⟨exec_crcClr hb, exec_crcUpd hb arg, exec_crcRd hb⟩

/-- Settles O25: the first request clears `CACC`, and the rest are those of `core_run_upd_rd`. -/
theorem checksumPortComputesTheChecksum : Obligations.ChecksumPortComputesTheChecksum := by
  intro d s h0 hseq hb hq
  have hstep : Sys2Proof.core.step s = _ := (step_of_request h0 hseq hb hq).trans (exec_crcClr hb)
  refine ⟨_, (core_run_of_step hstep).trans (core_run_upd_rd d h0 hseq hb rfl), rfl,
    ⟨rfl, rfl, rfl, rfl⟩, rfl, rfl, ?_⟩
  simp [List.replicate_succ, portResponse]
  rfl

/-- Settles O30: each is `.next` of the updated state by definition; of `FRAME.VAL` the checks are those of the words that
are there (`frameChecks_whole`), and there are some (`bitcntAfter_frameChecks`). -/
theorem framingAndScalingOperationsShowTheirResult :
    Obligations.FramingAndScalingOperationsShowTheirResult := by
  have hframe (w : Nat) (rx : List Byte) (s : State) :
      exec (.frameVal w rx) s = .next { s with
        acc := accAfterChecks s.acc (frameChecks Config.sg33 w 0 rx)
        bitcnt := bitcntAfter (min w (rx.length / 3)) s.bitcnt
        out := s.out ++ [.result (.frame (frameResult Config.sg33 w rx))] } := by
    rw [← bitcntAfter_frameChecks Config.sg33 w 0]
    change Host.Outcome.next ((s.checked Config.sg33 _).emit _) = _
    rw [checked_sg33]
    rfl
  refine fun s => ⟨fun p => rfl, fun b0 b1 k => ?_, fun b0 b1 => ?_, fun v => rfl,
    fun w rx h1 h3 hl => ?_, fun w rx => ⟨frameResult Config.sg33 w rx, ?_⟩⟩
  · change Host.Outcome.next ((s.checked Config.sg33 _).emit _) = _
    rw [checked_sg33]
    rfl
  · rw [← wordDec_eq_append]
    rfl
  · obtain ⟨n, hn⟩ : ∃ n, min w (rx.length / 3) = n + 1 := ⟨w - 1, by omega⟩
    rw [hframe, frameResult_of_bounds h1 h3 hl, hn, bitcntAfter_succ]
  · rw [hframe, ← frameChecks_whole]

/-- Settles O31: the free value is cut to five bytes, and a frame with at most one group has no more (`cmdAsm_length`). -/
theorem commandAssemblerFillsTheBuffer : Obligations.CommandAssemblerFillsTheBuffer := by
  intro code ps s
  refine ⟨txbufAfterAsm Config.sg33 code ps, rfl, ?_, fun h => if_pos h⟩
  unfold txbufAfterAsm
  split
  · next h =>
    have : ps.length ≤ 1 := h
    rw [cmdAsm_length]
    omega
  · exact List.length_take_le _ _

/-- Settles O32: the refusals of the operations are those of `operationIn_eq_refused`, and that of the configuration stands
before every operation and step (`whenGolden`). -/
theorem operandsOutOfBoundsAreRefused : Obligations.OperandsOutOfBoundsAreRefused := by
  have hgolden (c : Config) : crc8 c [0xBE#8, 0xEF#8] = c.goldenBeef ↔ c.wellFormed = true := by
    simp [Config.wellFormed]
  refine ⟨fun x s hb hx => ?_, fun c i s h => ?_, fun x s hb => if_pos hb, fun c hc => ?_, fun c hc => ?_,
    (hgolden _).mpr sg33_wellFormed⟩
  · have hx := (Xact.wellFormed_eq_false_iff x).mpr hx
    simp [exec, execExecute, executeIn, hb, hx]
  · unfold execIn whenGolden at h
    split at h
    · obtain hr | ⟨x, hi, hr | ⟨-, hb, hx⟩⟩ := operationIn_eq_refused h
      · cases hr
      · cases hr
      · exact ⟨hb, x, hi, (Xact.wellFormed_eq_false_iff x).mp hx⟩
    · cases h
  · have hc : c.wellFormed = false := Bool.eq_false_of_not_eq_true (mt (hgolden c).mpr hc)
    exact ⟨fun i s => whenGolden_of_not_wellFormed hc, fun s => whenGolden_of_not_wellFormed hc⟩
  · have hc := (hgolden c).mp hc
    refine ⟨fun i s h => ?_, fun s h => ?_⟩
    · rw [execIn_of_wellFormed hc] at h
      obtain hr | ⟨x, -, hr | ⟨hr, -⟩⟩ := operationIn_eq_refused h <;> cases hr
    · rw [stepIn_of_wellFormed hc] at h
      exact stepWith_ne_configuration h

/-- Settles O51: an idle engine answers each of the six codes alike (`reservedOp`). -/
theorem reservedCodesAnswerRefused : Obligations.ReservedCodesAnswerRefused := by
  intro i s hi hb
  simp only [List.mem_cons, List.not_mem_nil, or_false] at hi
  obtain rfl | rfl | rfl | rfl | rfl | rfl := hi <;> exact whenIdle_idle hb

/-- Settles O52: the guard of R213 is `whenReady`, closed or open, and the range check stands before it. -/
theorem uninitialisedPolicyGuardsThreeOperations :
    Obligations.UninitialisedPolicyGuardsThreeOperations := by
  intro c arg s hc hb hw
  simp only [execIn_of_wellFormed hc]
  have hset (h : arg ≤ 256000) : operationIn c (.setHum arg) s =
      whenReady c s (.next ((s.latchArg arg).runJob c .setHum)) := by
    rw [operationIn, setHumIn, whenIdle_idle hb, argBits_of_lt hw, if_pos ((humInRange_iff arg).mpr h)]
  refine ⟨fun hp hr => ⟨?_, ?_, fun h => ?_, fun h => operationIn_setHum_outOfRange hb h hw⟩,
    fun hopen => ⟨?_, ?_, fun h => ?_⟩⟩
  · rw [operationIn, measIn, whenIdle_idle hb, whenReady_of_closed hp hr]
  · rw [operationIn, measRawIn, whenIdle_idle hb, whenReady_of_closed hp hr]
  · rw [hset h, whenReady_of_closed hp hr]
  · rw [operationIn, measIn, whenIdle_idle hb, whenReady_of_open hopen]
  · rw [operationIn, measRawIn, whenIdle_idle hb, whenReady_of_open hopen]
  · rw [hset h, whenReady_of_open hopen]

end Sys2Proof.Machine
end

section
/-! PROOFS. What no transition reads: answers that come later, the architectural state and the record of events (R21, R23,
R39, assumptions 9, 10). -/

namespace Sys2Proof.Machine

section Independence

variable {c d : Config} {s s' t t' u a : State} {i : Instr} {j : Job} {r : XactResult}
  {ws : List Bool} {n : Nat} {rs : List (Option (List Byte))} {o : List Event}

/-- A relation that every transition keeps, and under which the same transitions are enabled, holds after two runs. -/
theorem run_rel {R : State → State → Prop}
    (hsome : ∀ s s' t, R s s' → advance c s = some t → ∃ t', advance d s' = some t' ∧ R t t')
    (hnone : ∀ s s', R s s' → advance c s = none → advance d s' = none) (n : Nat) (h : R s s') :
    R (run c n s) (run d n s') := by
  induction n generalizing s s' with
  | zero => exact h
  | succ n ih =>
    cases ha : advance c s with
    | none => rwa [run_of_none ha, run_of_none (hnone s s' h ha)]
    | some t =>
      obtain ⟨t', ha', ht⟩ := hsome s s' t h ha
      rw [run_of_some ha, run_of_some ha']
      exact ih ht

/-- What the handling of a result can come to (R171 to R178). -/
inductive Verdict where
  | storeMeas (words : List Word)
  | storeRaw (words : List Word)
  | complete (q : Response)
  | completeBegin (q : Response)
  | nextSubstep (v : Substep)

/-- The handling of a result that comes to z. -/
def State.conclude (s : State) : Verdict → State
  | .storeMeas words => (s.storeMeas words).complete (okResponse words)
  | .storeRaw words => (s.storeRaw words).complete (okResponse words)
  | .complete q => s.complete q
  | .completeBegin q => ({ s with ready := q.ok } : State).complete q
  | .nextSubstep v => s.nextSubstep v

/-- R178: after a good `IDENT` transaction `BEGIN` goes on. -/
theorem finish_beginSeq_identify {words : List Word} (h : s.substep = .identify) :
    s.finish c .beginSeq (.ok words) = s.nextSubstep .readFeatures := by
  simp only [State.finish, State.finishBegin]
  split
  · rfl
  · next h' => cases h.symm.trans h'
  · next h' => cases h.symm.trans h'

/-- R178: after a good `FEAT` transaction the family decides. -/
theorem finish_beginSeq_readFeatures {words : List Word} (h : s.substep = .readFeatures) :
    s.finish c .beginSeq (.ok words) =
      if familyOk c words then s.nextSubstep .initMeas else s.failBegin .familyMismatch := by
  simp only [State.finish, State.finishBegin]
  split
  · next h' => cases h.symm.trans h'
  · rfl
  · next h' => cases h.symm.trans h'

/-- R178: after a good `INIT` transaction `BEGIN` has succeeded. -/
theorem finish_beginSeq_initMeas {words : List Word} (h : s.substep = .initMeas) :
    s.finish c .beginSeq (.ok words) = ({ s with ready := true } : State).complete (okResponse []) := by
  simp only [State.finish, State.finishBegin]
  split
  · next h' => cases h.symm.trans h'
  · next h' => cases h.symm.trans h'
  · rfl

/-- Of the state only `SUBSTEP` decides what the handling of a result comes to. -/
theorem exists_verdict (c : Config) (u : Substep) (j : Job) (r : XactResult) :
    ∃ z, ∀ s : State, s.substep = u → s.finish c j r = s.conclude z := by
  cases r with
  | fail k =>
    by_cases hj : j = .beginSeq
    · exact ⟨.completeBegin (failResponse k), fun s _ => (finish_fail c s j k).trans (if_pos hj)⟩
    · exact ⟨.complete (failResponse k), fun s _ => (finish_fail c s j k).trans (if_neg hj)⟩
  | ok words =>
    cases j with
    | feat =>
      cases hf : familyOk c words with
      | true => exact ⟨.complete (okResponse words), fun s _ => if_pos hf⟩
      | false => exact ⟨.complete (failResponse .familyMismatch), fun s _ => if_neg (by simp [hf])⟩
    | beginSeq =>
      cases u with
      | identify => exact ⟨.nextSubstep .readFeatures, fun s => finish_beginSeq_identify⟩
      | readFeatures =>
        cases hf : familyOk c words with
        | true =>
          exact ⟨.nextSubstep .initMeas, fun s hu => (finish_beginSeq_readFeatures hu).trans (if_pos hf)⟩
        | false =>
          exact ⟨.completeBegin (failResponse .familyMismatch), fun s hu =>
            (finish_beginSeq_readFeatures hu).trans (if_neg (by simp [hf]))⟩
      | initMeas => exact ⟨.completeBegin (okResponse []), fun s => finish_beginSeq_initMeas⟩
    | meas => exact ⟨.storeMeas words, fun _ _ => rfl⟩
    | measRaw => exact ⟨.storeRaw words, fun _ _ => rfl⟩
    | ident | execute x => exact ⟨.complete (okResponse words), fun _ _ => rfl⟩
    | init | setHum => exact ⟨.complete (okResponse []), fun _ _ => rfl⟩

/-! Answers that come later. -/

theorem verify_moreAnswers (c : Config) (s : State) (x : Xact) :
    (s.moreAnswers ws n rs).verify c x = (s.verify c x).moreAnswers ws n rs := by
  obtain ⟨words, hv, he⟩ | ⟨m, hv, he⟩ := verify_cases c s x
  · rw [he, State.verify, show (s.moreAnswers ws n rs).rxbuf = s.rxbuf from rfl, hv]
    rfl
  · rw [he, verify_corrupt (s := s.moreAnswers ws n rs) hv]
    rfl

theorem finish_moreAnswers (c : Config) (s : State) (j : Job) (r : XactResult) :
    (s.moreAnswers ws n rs).finish c j r = (s.finish c j r).moreAnswers ws n rs := by
  obtain ⟨z, hz⟩ := exists_verdict c s.substep j r
  rw [hz s rfl, hz (s.moreAnswers ws n rs) rfl]
  cases z <;> rfl

/-- Each transition takes its answer from the front of a queue, so that it does the same with more answers behind. -/
theorem advance_moreAnswers (h : advance c s = some t) :
    advance c (s.moreAnswers ws n rs) = some (t.moreAnswers ws n rs) := by
  obtain ⟨j, hj, ⟨hp, rfl⟩ | ⟨hp, h⟩ | ⟨hp, h⟩ | ⟨hp, h⟩ | ⟨hp, rfl⟩ | ⟨hp, r, hr, rfl⟩⟩ := advance_cases h
  · exact advance_assemble (s := s.moreAnswers ws n rs) hj hp
  · obtain ⟨ws', ⟨hw, rfl⟩ | ⟨hw, rfl⟩⟩ := awaitWrite_cases h
    · exact advance_write_ok (s := s.moreAnswers ws n rs) hj hp (congrArg (· ++ ws) hw)
    · exact advance_write_fail (s := s.moreAnswers ws n rs) hj hp (congrArg (· ++ ws) hw)
  · obtain ⟨m, hm, hcase⟩ := awaitSleep_cases h
    have hn : (s.moreAnswers ws n rs).wakeups = (m + n) + 1 := by
      change s.wakeups + n = _
      omega
    obtain ⟨h0, rfl⟩ | ⟨h0, rfl⟩ := hcase
    · exact advance_settle_done (s := s.moreAnswers ws n rs) hj hp hn h0
    · exact advance_settle_read (s := s.moreAnswers ws n rs) hj hp hn (Nat.pos_of_ne_zero h0)
  · obtain ⟨q, rs', hq, ⟨bytes, rfl, hl, rfl⟩ | ⟨hbad, rfl⟩⟩ := awaitRead_cases h
    · exact advance_read_ok (s := s.moreAnswers ws n rs) hj hp (congrArg (· ++ rs) hq) hl
    · exact advance_read_fail (s := s.moreAnswers ws n rs) hj hp (congrArg (· ++ rs) hq) hbad
  · rw [advance_verify (s := s.moreAnswers ws n rs) hj hp, ← verify_moreAnswers]
    rfl
  · rw [advance_respond (s := s.moreAnswers ws n rs) hj hp hr, finish_moreAnswers]

theorem launched_moreAnswers (h : launched c s i = some u) :
    launched c (s.moreAnswers ws n rs) i = some (u.moreAnswers ws n rs) := by
  cases i <;> simp only [launched, accepted, accepted.guarded, Option.ite_none_left_eq_some,
    Option.ite_none_right_eq_some, Option.some.injEq, reduceCtorEq] at h ⊢
  case setHum b => exact ⟨h.1, h.2.1, h.2.2 ▸ rfl⟩
  case execute x => exact ⟨h.1, h.2 ▸ rfl⟩
  case meas | measRaw => exact ⟨h.1, h.2 ▸ rfl⟩
  all_goals exact h ▸ rfl

/-! The architectural state and the record. -/

/-- s with the architectural state of a, and o on the record before its own events. -/
def State.withArch (s a : State) (o : List Event) : State :=
  { s with
    eco2 := a.eco2, tvoc := a.tvoc, rawH2 := a.rawH2, rawEth := a.rawEth, ready := a.ready
    cacc := a.cacc, out := o ++ s.out }

/-- a has the result registers and `READY` of s. -/
def SameResultsReady (s a : State) : Prop := SameResults s a ∧ a.ready = s.ready

theorem verify_withArch (c : Config) (s a : State) (o : List Event) (x : Xact) :
    (s.withArch a o).verify c x = (s.verify c x).withArch a o := by
  have hout (l : List Check) : (s.withArch a o).checked c l = (s.checked c l).withArch a o := by
    simp [State.checked, State.withArch]
  obtain ⟨words, hv, he⟩ | ⟨m, hv, he⟩ := verify_cases c s x
  · rw [he, State.verify, show (s.withArch a o).rxbuf = s.rxbuf from rfl, hv]
    simp only [hout]
    rfl
  · rw [he, verify_corrupt (s := s.withArch a o) hv, show (s.withArch a o).rxbuf = s.rxbuf from rfl,
      hout]
    rfl

/-- The handling of a result writes the result registers and `READY`, and reads none of them (R21, R23). -/
theorem finish_withArch (c : Config) (s a : State) (o : List Event) (j : Job) (r : XactResult) :
    ∃ b, (s.withArch a o).finish c j r = (s.finish c j r).withArch b o ∧ b.cacc = a.cacc ∧
      (SameResultsReady s a → SameResultsReady (s.finish c j r) b) := by
  have hcomplete (u b : State) (q : Response) :
      (u.withArch b o).complete q = (u.complete q).withArch b o := by
    simp [State.complete, State.withArch]
  obtain ⟨z, hz⟩ := exists_verdict c s.substep j r
  rw [hz s rfl, hz (s.withArch a o) rfl]
  cases z with
  | storeMeas words =>
    exact ⟨a.storeMeas words, hcomplete (s.storeMeas words) (a.storeMeas words) _, rfl,
      fun ⟨⟨he, ht, hrest⟩, hr⟩ =>
        ⟨⟨congrArg (words.getD 0) he, congrArg (words.getD 1) ht, hrest⟩, hr⟩⟩
  | storeRaw words =>
    exact ⟨a.storeRaw words, hcomplete (s.storeRaw words) (a.storeRaw words) _, rfl,
      fun ⟨⟨he, ht, hh, hm⟩, hr⟩ =>
        ⟨⟨he, ht, congrArg (words.getD 0) hh, congrArg (words.getD 1) hm⟩, hr⟩⟩
  | complete q => exact ⟨a, hcomplete s a q, rfl, id⟩
  | completeBegin q =>
    exact ⟨{ a with ready := q.ok }, hcomplete { s with ready := q.ok } { a with ready := q.ok } q, rfl,
      fun ⟨hres, _⟩ => ⟨hres, rfl⟩⟩
  | nextSubstep v => exact ⟨a, rfl, rfl, id⟩

/-- s' differs from s at most in the architectural state, of which it has k in `CACC`, and in having o on the record before
the events of s; and where p holds, in no result register and not in `READY`. -/
def Apart (p : Prop) (k : Byte) (o : List Event) (s s' : State) : Prop :=
  ∃ a, s' = s.withArch a o ∧ a.cacc = k ∧ (p → SameResultsReady s a)

variable {p : Prop} {k : Byte}

/-- No transition reads the architectural state or the record. -/
theorem advance_apart (hs : Apart p k o s s') (h : advance c s = some t) :
    ∃ t', advance c s' = some t' ∧ Apart p k o t t' := by
  obtain ⟨a, rfl, hk, hsame⟩ := hs
  have hout (e : Event) : (o ++ s.out) ++ [e] = o ++ (s.out ++ [e]) := List.append_assoc ..
  obtain ⟨j, hj, ⟨hp, rfl⟩ | ⟨hp, h⟩ | ⟨hp, h⟩ | ⟨hp, h⟩ | ⟨hp, rfl⟩ | ⟨hp, r, hr, rfl⟩⟩ := advance_cases h
  · refine ⟨_, (advance_assemble (s := s.withArch a o) hj hp).trans ?_, a, rfl, hk, hsame⟩
    simp [State.assemble, State.withArch]
  · obtain ⟨ws', ⟨hw, rfl⟩ | ⟨hw, rfl⟩⟩ := awaitWrite_cases h
    · refine ⟨_, (advance_write_ok (s := s.withArch a o) hj hp hw).trans ?_, a, rfl, hk, hsame⟩
      simp [State.withArch]
    · exact ⟨_, advance_write_fail (s := s.withArch a o) hj hp hw, a, rfl, hk, hsame⟩
  · obtain ⟨m, hm, ⟨h0, rfl⟩ | ⟨h0, rfl⟩⟩ := awaitSleep_cases h
    · exact ⟨_, advance_settle_done (s := s.withArch a o) hj hp hm h0, a, rfl, hk, hsame⟩
    · refine ⟨_, (advance_settle_read (s := s.withArch a o) hj hp hm (Nat.pos_of_ne_zero h0)).trans ?_,
        a, rfl, hk, hsame⟩
      simp [State.withArch]
  · obtain ⟨q, rs', hq, ⟨bytes, rfl, hl, rfl⟩ | ⟨hbad, rfl⟩⟩ := awaitRead_cases h
    · exact ⟨_, advance_read_ok (s := s.withArch a o) hj hp hq hl, a, rfl, hk, hsame⟩
    · exact ⟨_, advance_read_fail (s := s.withArch a o) hj hp hq hbad, a, rfl, hk, hsame⟩
  · refine ⟨_, (advance_verify (s := s.withArch a o) hj hp).trans
      (congrArg some (verify_withArch c s a o _)), a, rfl, hk, fun hp => ?_⟩
    obtain ⟨words, -, he⟩ | ⟨m, -, he⟩ := verify_cases c s (j.xact s.substep s.arg) <;> rw [he] <;>
      exact hsame hp
  · obtain ⟨b, hb, hbk, hbsame⟩ := finish_withArch c s a o j r
    exact ⟨_, (advance_respond (s := s.withArch a o) hj hp hr).trans (congrArg some hb), b, rfl,
      hbk.trans hk, fun hp => hbsame (hsame hp)⟩

theorem run_apart (c : Config) (n : Nat) (h : Apart p k o s s') :
    Apart p k o (run c n s) (run c n s') := by
  refine run_rel (fun _ _ _ hs ha => advance_apart hs ha) (fun s s' hs ha => ?_) n h
  obtain ⟨a, rfl, -⟩ := hs
  rw [advance_eq_none_cases] at ha ⊢
  exact ha

theorem accepted_withArch (i : Instr) (s a : State) (o : List Event) :
    accepted Config.sg33 (s.withArch a o) i = (accepted Config.sg33 s i).map (·.withArch a o) := by
  cases i
  case setHum b =>
    cases hr : humInRange (argBits Config.sg33 b) with
    | true =>
      simp only [accepted, hr, if_true]
      rfl
    | false => simp [accepted, hr]
  all_goals rfl

theorem launched_withArch (i : Instr) (s a : State) (o : List Event) :
    launched Config.sg33 (s.withArch a o) i = (launched Config.sg33 s i).map (·.withArch a o) := by
  by_cases hx : ∃ x, i = .execute x
  · obtain ⟨x, rfl⟩ := hx
    rw [launched_execute, launched_execute]
    split <;> rfl
  · rw [not_exists] at hx
    rw [launched_eq_accepted hx, launched_eq_accepted hx, accepted_withArch]

/-- One more event commutes with what stands before the record. -/
theorem emit_withArch (o : List Event) (e : Event) :
    (s.withArch a o).emit e = (s.emit e).withArch a o := by
  simp [State.emit, State.withArch]

/-- What an operation with another architectural state and another record before it comes to: b is what the architectural
state a comes to. -/
structure ExecApart (i : Instr) (s t a b : State) (o : List Event) : Prop where
  exec : Machine.exec i (s.withArch a o) = .next (t.withArch b o)
  sameCacc : a.cacc = s.cacc → b.cacc = t.cacc
  keepsCacc : (∃ j, Instr.toJob i = some j) → b.cacc = a.cacc
  sameRest : SameResultsReady s a → SameResultsReady t b

/-- The internal operations show their result and touch nothing architectural. -/
theorem exec_internal_apart (o : List Event) (hi : i.hostSelectable = false)
    (hx : Instr.toJob i = none) (h : exec i s = .next t) : ExecApart i s t a a o := by
  have hboth : exec i (s.withArch a o) = .next (t.withArch a o) ∧ SameArch s t := by
    cases i <;> simp only [Instr.hostSelectable, Instr.toJob, Bool.true_eq_false, reduceCtorEq] at hi hx
    all_goals
      cases h
      refine ⟨?_, ⟨rfl, rfl, rfl, rfl⟩, rfl, rfl⟩
    case frameVal | wordChk =>
      simp [exec, execFrameVal, frameValIn, execWordChk, wordChkIn, State.emit, State.withArch,
        State.checked]
    all_goals
      exact congrArg Host.Outcome.next (by simp [State.emit, State.withArch, State.setAcc, State.putFrame])
  obtain ⟨hexec, ⟨he, ht, hh, hm⟩, hr, hc⟩ := hboth
  exact ⟨hexec, fun hk => hk.trans hc.symm, fun _ => rfl, fun ⟨⟨he', ht', hh', hm'⟩, hr'⟩ =>
    ⟨⟨he'.trans he.symm, ht'.trans ht.symm, hh'.trans hh.symm, hm'.trans hm.symm⟩, hr'.trans hr.symm⟩⟩

theorem hold_withArch (i : Instr) (s a : State) (o : List Event) :
    (s.withArch a o).hold i = (s.hold i).withArch a o := by
  unfold State.hold
  split <;> rfl

theorem hold_sameArch (i : Instr) (s : State) : SameArch s (s.hold i) := by
  unfold State.hold
  split <;> exact .refl _

/-- A host operation answered at once writes nothing architectural but `CACC`, and what it makes of `CACC` is only `CACC`'s
and its operand's (R91, R119, R208). -/
theorem exec_answered_apart (o : List Event) (hi : i.hostSelectable = true) (hb : s.busy = false)
    (hl : launched Config.sg33 s i = none) (hk : a.cacc = s.cacc ∨ ∃ j, Instr.toJob i = some j)
    (h : exec i s = .next t) : ∃ b, ExecApart i s t a b o := by
  have hreply (u b : State) (q : Response) :
      Host.Outcome.next (ρ := Refusal) (φ := Fault) ((u.withArch b o).reply q) =
        .next ((u.reply q).withArch b o) := congrArg _ (emit_withArch o _)
  cases i <;> simp only [Instr.hostSelectable, Bool.false_eq_true] at hi
  case setHum b =>
    cases hr : humInRange (argBits Config.sg33 b) with
    | true => cases (if_pos hr).symm.trans hl
    | false =>
      cases (exec_setHum_outOfRange hb hr).symm.trans h
      exact ⟨a, (exec_setHum_outOfRange (s := s.withArch a o) hb hr).trans (hreply (s.latchArg _) a _),
        id, fun _ => rfl, id⟩
  case ident | feat | init | beginSeq => cases hl
  case meas | measRaw => cases hl
  all_goals
    replace hk : a.cacc = s.cacc := hk.resolve_right (by simp [Instr.toJob])
    cases (whenIdle_idle hb).symm.trans h
  case crcClr =>
    exact ⟨{ a with cacc := Config.sg33.init }, (whenIdle_idle (s := s.withArch a o) hb).trans
      (hreply { s with cacc := _ } { a with cacc := Config.sg33.init } _), fun _ => rfl,
      by simp [Instr.toJob], id⟩
  case crcUpd b =>
    refine ⟨{ a with cacc := crcByte Config.sg33.poly s.cacc (argByte Config.sg33 b) },
      (whenIdle_idle (s := s.withArch a o) hb).trans ?_, fun _ => rfl, by simp [Instr.toJob], id⟩
    rw [show (s.withArch a o).cacc = s.cacc from hk]
    exact hreply { s with cacc := _ } { a with cacc := crcByte Config.sg33.poly s.cacc _ } _
  case crcRd =>
    refine ⟨a, (whenIdle_idle (s := s.withArch a o) hb).trans ?_, id, by simp [Instr.toJob], id⟩
    rw [show (s.withArch a o).cacc = s.cacc from hk]
    exact hreply s a _
  all_goals
    exact ⟨a, (whenIdle_idle (s := s.withArch a o) hb).trans (hreply s a _), id,
      by simp [Instr.toJob], id⟩

/-- A transaction reads nothing architectural, and leaves `CACC` (R39). -/
theorem exec_launched_apart (a : State) (o : List Event) (hb : s.busy = false)
    (hl : launched Config.sg33 s i = some u) (h : exec i s = .next t) : ∃ b, ExecApart i s t a b o := by
  cases (exec_of_launched hb hl).symm.trans h
  obtain ⟨j, v, n, -, rfl⟩ := launched_eq_startWith hl
  obtain ⟨b, hb', hk, hsame⟩ := run_apart (s := s.startWith j v n) (p := SameResultsReady s a)
    (k := a.cacc) (o := o) Config.sg33 runFuel ⟨a, rfl, rfl, fun h => h⟩
  have hcacc := (ran_settleDown (startWith_job s j v n) Config.sg33).cacc
  exact ⟨b, (exec_of_launched (s := s.withArch a o) hb
    ((launched_withArch i s a o).trans (congrArg _ hl))).trans (congrArg _ hb'),
    fun h => hk.trans (h.trans hcacc.symm), fun _ => hk, hsame⟩

/-- Every operation reads of the architectural state at most `CACC`, and of the record nothing. -/
theorem exec_apart (o : List Event) (hk : a.cacc = s.cacc ∨ ∃ j, Instr.toJob i = some j)
    (h : exec i s = .next t) : ∃ b, ExecApart i s t a b o := by
  cases hi : i.hostSelectable with
  | false =>
    cases hx : Instr.toJob i with
    | none => exact ⟨a, exec_internal_apart o hi hx h⟩
    | some j =>
      obtain ⟨x, rfl⟩ : ∃ x, i = .execute x := by
        cases i <;> simp [Instr.hostSelectable, Instr.toJob] at hi hx ⊢
      cases hb : s.busy with
      | true => cases (if_pos hb : exec (.execute x) s = .refused .engineBusy).symm.trans h
      | false =>
        cases hw : x.wellFormed with
        | true => exact exec_launched_apart a o hb (if_pos hw) h
        | false => simp [exec, execExecute, executeIn, hb, hw] at h
  | true =>
    cases hb : s.busy with
    | true =>
      cases (exec_host_busy hi hb).symm.trans h
      obtain ⟨⟨he, ht, hh, hm⟩, hr, hc⟩ := hold_sameArch i s
      exact ⟨a, (exec_host_busy (s := s.withArch a o) hi hb).trans (congrArg _ (hold_withArch i s a o)),
        fun h => h.trans hc.symm, fun _ => rfl, fun ⟨⟨he', ht', hh', hm'⟩, hr'⟩ =>
        ⟨⟨he'.trans he.symm, ht'.trans ht.symm, hh'.trans hh.symm, hm'.trans hm.symm⟩, hr'.trans hr.symm⟩⟩
    | false =>
      cases hl : launched Config.sg33 s i with
      | some u => exact exec_launched_apart a o hb hl h
      | none => exact exec_answered_apart o hi hb hl hk h

/-- A donor that agrees in everything but `CACC` changes only `CACC`. -/
theorem withArch_of_same (h : SameResultsReady s a) (o : List Event) :
    s.withArch a o = { s with cacc := a.cacc, out := o ++ s.out } := by
  obtain ⟨⟨he, ht, hh, hm⟩, hr⟩ := h
  rw [State.withArch, he, ht, hh, hm, hr]

/-- Nor does what the engine still does before a reset lands (R231). -/
theorem beforeReset_apart (n : Nat) (s a : State) (o : List Event) :
    ∃ b, (s.withArch a o).beforeReset Config.sg33 n =
      (s.beforeReset Config.sg33 n).withArch b o := by
  have hrun (m : Nat) (u : State) :
      ∃ b, run Config.sg33 m (u.withArch a o) = (run Config.sg33 m u).withArch b o := by
    obtain ⟨b, hb, -⟩ := run_apart (p := False) (s := u) (k := a.cacc) (o := o) Config.sg33 m
      ⟨a, rfl, rfl, False.elim⟩
    exact ⟨b, hb⟩
  unfold State.beforeReset
  cases hb : s.busy with
  | true =>
    rw [if_pos rfl, if_pos (show (s.withArch a o).busy = true from hb)]
    exact hrun n s
  | false =>
    rw [if_neg Bool.false_ne_true, if_neg (by simp [show (s.withArch a o).busy = false from hb])]
    cases hq : s.reqs with
    | nil =>
      rw [fetch_of_nil hq, fetch_of_nil (s := s.withArch a o) hq]
      cases n <;> exact ⟨a, rfl⟩
    | cons q qs =>
      rw [fetch_of_cons hq, fetch_of_cons (s := s.withArch a o) hq]
      cases n with
      | zero => exact ⟨a, rfl⟩
      | succ m =>
        have hacc := accepted_withArch (decodeRequest q) { s with reqs := qs } a o
        simp only [show ({ s.withArch a o with reqs := qs } : State) =
          State.withArch { s with reqs := qs } a o from rfl, hacc]
        cases accepted Config.sg33 { s with reqs := qs } (decodeRequest q) with
        | none => exact ⟨a, rfl⟩
        | some u => exact hrun m u

/-- A step reads of the architectural state at most `CACC`, and of the record nothing. -/
theorem step_apart (o : List Event) (hk : a.cacc = s.cacc) (h : step s = .next t) :
    ∃ b, step (s.withArch a o) = .next (t.withArch b o) ∧ b.cacc = t.cacc ∧
      (SameResultsReady s a → SameResultsReady t b) := by
  cases h0 : s.rst with
  | some n =>
    cases (step_of_rst h0).symm.trans h
    obtain ⟨b, hb⟩ := beforeReset_apart n s a o
    refine ⟨(s.beforeReset Config.sg33 n).resetEvent Config.sg33, ?_, rfl,
      fun _ => ⟨⟨rfl, rfl, rfl, rfl⟩, rfl⟩⟩
    rw [step_of_rst (s := s.withArch a o) h0, hb]
    rfl
  | none =>
    obtain ⟨-, hseq, ⟨hb, rfl⟩ | ⟨hb, hq, rfl⟩ | ⟨q, qs, hb, hq, ho⟩⟩ :=
      stepIn_cases h0 (stepIn_sg33 s ▸ h)
    · obtain ⟨j, hj⟩ := exists_job_of_busy hseq hb
      obtain ⟨b, hb', hbk, hsame⟩ := run_apart (p := SameResultsReady s a) (k := a.cacc) (o := o)
        Config.sg33 runFuel ⟨a, rfl, rfl, fun h => h⟩
      exact ⟨b, (step_of_busy (s := s.withArch a o) h0 hseq hb).trans (congrArg _ hb'),
        hbk.trans (hk.trans (ran_settleDown hj _).cacc.symm), hsame⟩
    · refine ⟨a, ?_, hk, id⟩
      rw [← stepIn_sg33]
      exact stepIn_of_rest sg33_wellFormed h0 hseq hb hq
    · obtain ⟨b, he, hcacc, -, hsame⟩ := exec_apart (s := { s with reqs := qs }) (a := a) o (.inl hk)
        ((operationIn_sg33 _ _).symm.trans ho)
      exact ⟨b, (step_of_request (s := s.withArch a o) h0 hseq hb hq).trans he, hcacc hk, hsame⟩

/-- s' as s with the architectural state of s' itself. -/
theorem eq_withArch_of_eq (h : s' = { s with
    eco2 := s'.eco2, tvoc := s'.tvoc, rawH2 := s'.rawH2, rawEth := s'.rawEth, ready := s'.ready }) :
    s' = s.withArch s' [] ∧ s'.cacc = s.cacc := by
  have hk : s'.cacc = s.cacc := (congrArg State.cacc h :)
  exact ⟨h.trans (by rw [State.withArch, hk, List.nil_append]), hk⟩

/-- Where b agrees in `CACC`, only result registers and `READY` are another's. -/
theorem withArch_eq_of_cacc {b : State} (hk : b.cacc = t.cacc) :
    t.withArch b [] = { t with
      eco2 := (t.withArch b []).eco2, tvoc := (t.withArch b []).tvoc, rawH2 := (t.withArch b []).rawH2
      rawEth := (t.withArch b []).rawEth, ready := (t.withArch b []).ready } := by
  rw [State.withArch, hk]
  rfl

end Independence

/-- Settles O56: `CACC` is among what no transition reads (`run_apart`), and a run leaves it (`Ran.cacc`). -/
theorem transactionsAndChecksumPortAreIndependent :
    Obligations.TransactionsAndChecksumPortAreIndependent := by
  refine ⟨fun i s t k hj h => ?_, fun s t k h0 hb h => ?_⟩
  · have hcacc : t.cacc = s.cacc := by
      obtain ⟨b, -, hsame, hkeep, -⟩ := exec_apart (a := s) [] (.inl rfl) h
      exact (hsame rfl).symm.trans (hkeep hj)
    obtain ⟨b, he, -, hkeep, hsame⟩ := exec_apart (a := { s with cacc := k }) [] (.inr hj) h
    refine ⟨hcacc, he.trans (congrArg _ ?_)⟩
    rw [withArch_of_same (hsame ⟨⟨rfl, rfl, rfl, rfl⟩, rfl⟩), hkeep hj, List.nil_append]
  · obtain ⟨j, -, rfl, hran⟩ := step_of_busy_ran h0 hb h
    obtain ⟨-, hseq, -⟩ := stepIn_cases h0 (stepIn_sg33 s ▸ h)
    obtain ⟨b, hb', hbk, hsame⟩ := run_apart (p := True) (s := s) (k := k) (o := []) Config.sg33 runFuel
      ⟨{ s with cacc := k }, rfl, rfl, fun _ => ⟨⟨rfl, rfl, rfl, rfl⟩, rfl⟩⟩
    refine ⟨hran.cacc, (step_of_busy (s := { s with cacc := k }) h0 hseq hb).trans
      (congrArg _ (hb'.trans ?_))⟩
    rw [withArch_of_same (hsame trivial), hbk, List.nil_append]
    rfl

/-- Settles O57: another engine's result registers and `READY` are an architectural state that agrees in `CACC`
(`exec_apart`, `step_apart`). -/
theorem noOperationReadsResultsOrReady : Obligations.NoOperationReadsResultsOrReady := by
  intro s s' t hs
  obtain ⟨hs', hk⟩ := eq_withArch_of_eq hs
  refine ⟨fun i h => ?_, fun h => ?_⟩
  · obtain ⟨b, he, hcacc, -, -⟩ := exec_apart (a := s') [] (.inl hk) h
    exact ⟨_, hs' ▸ he, withArch_eq_of_cacc (hcacc hk)⟩
  · obtain ⟨b, he, hcacc, -⟩ := step_apart (a := s') [] hk h
    exact ⟨_, hs' ▸ he, withArch_eq_of_cacc hcacc⟩

/-- Settles O58: a record with more events before it is the same engine's (`step_apart`). -/
theorem theRecordOfEventsIsNeverRead : Obligations.TheRecordOfEventsIsNeverRead := by
  intro s t pre h
  obtain ⟨b, he, hk, hsame⟩ := step_apart (a := s) pre rfl h
  refine he.trans (congrArg _ ?_)
  rw [withArch_of_same (hsame ⟨⟨rfl, rfl, rfl, rfl⟩, rfl⟩), hk]

/-- Settles O10: a run ends where the fuel is no bound (`advance_settleDown`), and each transition does the same with more
answers behind (`advance_moreAnswers`), so that the rest of the run follows from wherever it stops. -/
theorem runEndsOnlyIdleOrWaiting : Obligations.RunEndsOnlyIdleOrWaiting := by
  have hmore (s : State) (ws : List Bool) (n : Nat) (rs : List (Option (List Byte))) :
      settleDown Config.sg33 ((settleDown Config.sg33 s).moreAnswers ws n rs) =
        settleDown Config.sg33 (s.moreAnswers ws n rs) :=
    settleDown_of_run (f := fun u => u.moreAnswers ws n rs) (fun _ _ => advance_moreAnswers) s
  refine ⟨advance_settleDown, fun i s t ws n rs h0 hb h hbusy => ?_, fun s t ws n rs h0 hseq hb h _ => ?_⟩
  · obtain ⟨u, hu, rfl⟩ | hans := operationIn_idle_cases hb ((operationIn_sg33 i s).trans h)
    · rw [exec_of_launched (s := s.moreAnswers ws n rs) hb (launched_moreAnswers hu), ← hmore]
      obtain ⟨j, v, a, -, rfl⟩ := launched_eq_startWith hu
      have hran := ran_settleDown (startWith_job s j v a) Config.sg33
      exact step_of_busy (s := State.moreAnswers _ ws n rs) (hran.rst.trans h0)
        (settleDown_sequencerOk (c := Config.sg33) (s := s.startWith j v a) rfl) hbusy
    · obtain ⟨b, -, -, rfl⟩ | ⟨k, r, -, -, -, rfl⟩ | ⟨_, _, _, _, _, _, -, -, -, rfl⟩ := hans <;>
        exact absurd (hb.symm.trans hbusy) Bool.false_ne_true
  · obtain ⟨j, hj, rfl, hran⟩ := step_of_busy_ran h0 hb h
    rw [step_of_busy (s := s.moreAnswers ws n rs) h0 hseq hb, ← hmore]
    exact step_of_busy (s := State.moreAnswers _ ws n rs) (hran.rst.trans h0)
      (settleDown_sequencerOk hseq) ‹_›

end Sys2Proof.Machine
end

section
/-! PROOFS. The agents of R7: exactly one of them is enabled, and an answer stands only in the queue of the request it
answers (R50, R57, R231, R233, R236). -/

namespace Sys2Proof.Machine

section Agents

variable {c : Config} {s t u : State} {i : Instr} {k : Input}

/-- The engine waits for an answer exactly where the transport or the delay primitive has one to give. -/
theorem awaitsAnswer_iff :
    s.awaitsAnswer ↔ s.enabled c .transport = true ∨ s.enabled c .delay = true := by
  simp only [State.awaitsAnswer, State.enabled, State.writeOutstanding, State.readOutstanding,
    State.sleepOutstanding, Bool.or_eq_true, Bool.and_eq_true, beq_iff_eq, List.isEmpty_iff]
  tauto

/-- The transport and the delay primitive have answers to give in different phases. -/
theorem not_transport_and_delay (ht : s.enabled c .transport = true) (hd : s.enabled c .delay = true) :
    False := by
  simp only [State.enabled, State.writeOutstanding, State.readOutstanding, State.sleepOutstanding,
    Bool.or_eq_true, Bool.and_eq_true, beq_iff_eq] at ht hd
  simp [hd.1] at ht

/-- R24: an agent that has an answer to give has it while the engine is busy. -/
theorem busy_of_awaitsAnswer (hs : s.sequencerOk = true) (h : s.awaitsAnswer) : s.busy = true := by
  refine (sequencerOk_iff.mp hs).1.mpr fun hidle => ?_
  obtain hp | hp | hp := h.waiting <;> cases hidle.symm.trans hp

/-- A busy engine has a transition enabled exactly where it does not wait for an answer (R55). -/
theorem enabled_engine_of_busy (hs : s.sequencerOk = true) (hb : s.busy = true) :
    s.enabled c .engine = true ↔ ¬ s.awaitsAnswer := by
  have hidle : s.phase ≠ .idle := (sequencerOk_iff.mp hs).1.mp hb
  rw [State.enabled, hb, if_pos rfl, Option.isSome_iff_ne_none, ne_eq, advance_eq_none_iff hs]
  simp [hidle]

theorem enabled_engine_of_not_busy (hb : s.busy = false) :
    s.enabled c .engine = true ↔ s.reqs ≠ [] := by
  simp [State.enabled, hb]

theorem enabled_host_iff : s.enabled c .host = true ↔ s.busy = false ∧ s.reqs = [] := by
  simp [State.enabled]

/-- R7: with the sequencer's bits in order, some agent is enabled. -/
theorem exists_enabled (c : Config) (hs : s.sequencerOk = true) : ∃ a, s.enabled c a = true := by
  cases hb : s.busy with
  | false =>
    by_cases hq : s.reqs = []
    · exact ⟨.host, enabled_host_iff.mpr ⟨hb, hq⟩⟩
    · exact ⟨.engine, (enabled_engine_of_not_busy hb).mpr hq⟩
  | true =>
    by_cases hw : s.awaitsAnswer
    · exact (awaitsAnswer_iff.mp hw).elim (fun h => ⟨.transport, h⟩) fun h => ⟨.delay, h⟩
    · exact ⟨.engine, (enabled_engine_of_busy hs hb).mpr hw⟩

/-- R7: no two agents are enabled at once. -/
theorem enabled_unique (hs : s.sequencerOk = true) {a b : Agent} (ha : s.enabled c a = true)
    (hb : s.enabled c b = true) : b = a := by
  have hhost {e : Agent} (h : s.enabled c .host = true) (he : s.enabled c e = true) : e = .host := by
    obtain ⟨hbusy, hq⟩ := enabled_host_iff.mp h
    have hnot : ¬ s.awaitsAnswer := fun hw => by simp [busy_of_awaitsAnswer hs hw] at hbusy
    cases e with
    | host => rfl
    | engine => exact absurd hq ((enabled_engine_of_not_busy hbusy).mp he)
    | transport => exact absurd (awaitsAnswer_iff.mpr (.inl he)) hnot
    | delay => exact absurd (awaitsAnswer_iff.mpr (.inr he)) hnot
  have hengine (h : s.enabled c .engine = true) (hw : s.awaitsAnswer) : False :=
    (enabled_engine_of_busy hs (busy_of_awaitsAnswer hs hw)).mp h hw
  cases a <;> cases b
  case host.host | engine.engine | transport.transport | delay.delay => rfl
  case host.engine | host.transport | host.delay => exact hhost ha hb
  case engine.host | transport.host | delay.host => exact (hhost hb ha).symm
  case engine.transport => exact (hengine ha (awaitsAnswer_iff.mpr (.inl hb))).elim
  case engine.delay => exact (hengine ha (awaitsAnswer_iff.mpr (.inr hb))).elim
  case transport.engine => exact (hengine hb (awaitsAnswer_iff.mpr (.inl ha))).elim
  case delay.engine => exact (hengine hb (awaitsAnswer_iff.mpr (.inr ha))).elim
  case transport.delay => exact (not_transport_and_delay ha hb).elim
  case delay.transport => exact (not_transport_and_delay hb ha).elim

/-- No operation takes a further request from the channel (R32). -/
theorem operationIn_reqs (hb : s.busy = false) (h : operationIn c i s = .next t) : t.reqs = s.reqs := by
  obtain ⟨u, hu, rfl⟩ | ⟨b, -, -, rfl⟩ | ⟨k, r, -, -, -, rfl⟩ | ⟨_, _, _, _, _, _, -, -, -, rfl⟩ :=
    operationIn_idle_cases hb h
  · obtain ⟨j, v, a, -, rfl⟩ := launched_eq_startWith hu
    exact (ran_settleDown (startWith_job s j v a) c).reqs
  all_goals rfl

/-- The engine is enabled exactly where its step does not leave the state as it is. -/
theorem enabled_engine_iff (hc : c.wellFormed = true) (hs : s.sequencerOk = true) (h0 : s.rst = none) :
    s.enabled c .engine = true ↔ stepIn c s ≠ .next s := by
  cases hb : s.busy with
  | true =>
    rw [stepIn_of_busy hc h0 hs hb, ne_eq, Host.Outcome.next.injEq, settleDown_eq_self_iff,
      State.enabled, hb, if_pos rfl, Option.isSome_iff_ne_none]
  | false =>
    rw [enabled_engine_of_not_busy hb]
    cases hq : s.reqs with
    | nil => simp [stepIn_of_rest hc h0 hs hb hq]
    | cons q qs =>
      rw [stepIn_of_request hc h0 hs hb hq]
      simp only [ne_eq, reduceCtorEq, not_false_eq_true, true_iff]
      intro h
      have hqs : s.reqs = qs := operationIn_reqs (s := { s with reqs := qs }) hb h
      simp [hq] at hqs

theorem not_enabled_of_agent {a : Agent} (hk : k.agent = some a) (ha : s.enabled c a = false) :
    k.enabled s = false := by
  cases k <;> cases hk <;> simp_all [State.enabled, Input.enabled]

/-- After a request or an answer it is the engine's turn. -/
theorem enabled_engine_receive {a : Agent} (hs : s.sequencerOk = true) (hk : k.agent = some a)
    (he : k.enabled s = true) : (s.receive k).enabled c .engine = true := by
  have hgo (hw : s.awaitsAnswer) (hs' : (s.receive k).sequencerOk = true)
      (hb' : (s.receive k).busy = s.busy) (hn : ¬ (s.receive k).awaitsAnswer) :
      (s.receive k).enabled c .engine = true :=
    (enabled_engine_of_busy hs' (hb'.trans (busy_of_awaitsAnswer hs hw))).mpr hn
  cases k with
  | request r =>
    have hb : s.busy = false := by simp_all [Input.enabled]
    exact (enabled_engine_of_not_busy (s := s.receive (.request r)) hb).mpr (by simp [State.receive])
  | writeAnswer ok =>
    obtain ⟨hp, hq⟩ : s.phase = .write ∧ s.writeAnswers = [] := by
      simpa [Input.enabled, State.writeOutstanding] using he
    exact hgo (.inl ⟨hp, hq⟩) hs rfl (by simp [State.awaitsAnswer, State.receive, hp])
  | wakeup =>
    obtain ⟨hp, hq⟩ : s.phase = .settle ∧ s.wakeups = 0 := by
      simpa [Input.enabled, State.sleepOutstanding] using he
    exact hgo (.inr (.inl ⟨hp, hq⟩)) hs rfl (by simp [State.awaitsAnswer, State.receive, hp])
  | readAnswer x =>
    obtain ⟨hp, hq⟩ : s.phase = .read ∧ s.readAnswers = [] := by
      simpa [Input.enabled, State.readOutstanding] using he
    exact hgo (.inr (.inr ⟨hp, hq⟩)) hs rfl (by simp [State.awaitsAnswer, State.receive, hp])
  | reset n => cases hk

theorem receive_eq (s : State) (k : Input) :
    s.receive k = { s with
      rst := (s.receive k).rst, reqs := (s.receive k).reqs
      writeAnswers := (s.receive k).writeAnswers, wakeups := (s.receive k).wakeups
      readAnswers := (s.receive k).readAnswers } := by
  cases k <;> rfl

/-! The answers in the queues. -/

/-- R50, R57: an engine in no waiting phase has no answer. -/
theorem ownAnswers_of_empty (hw : s.writeAnswers = []) (hn : s.wakeups = 0) (hr : s.readAnswers = []) :
    s.ownAnswers := by
  simp [State.ownAnswers, hw, hn, hr]

theorem State.ownAnswers.empty (h : s.ownAnswers)
    (hp : s.phase ≠ .write ∧ s.phase ≠ .settle ∧ s.phase ≠ .read) :
    s.writeAnswers = [] ∧ s.wakeups = 0 ∧ s.readAnswers = [] := by
  simpa [State.ownAnswers, hp] using h

/-- Every transition takes the answer that is there, so that the next request finds none (R233). -/
theorem ownAnswers_of_advance (h : s.ownAnswers) (ha : advance c s = some t) : t.ownAnswers := by
  obtain ⟨j, hj, ⟨hp, rfl⟩ | ⟨hp, ha⟩ | ⟨hp, ha⟩ | ⟨hp, ha⟩ | ⟨hp, rfl⟩ | ⟨hp, r, hr, rfl⟩⟩ :=
    advance_cases ha
  · obtain ⟨hw, hn, hr⟩ := h.empty (by simp [hp])
    exact ownAnswers_of_empty hw hn hr
  · obtain ⟨ws, ⟨hw, rfl⟩ | ⟨hw, rfl⟩⟩ := awaitWrite_cases ha <;>
      simp_all [State.ownAnswers]
  · obtain ⟨n, hn, ⟨-, rfl⟩ | ⟨-, rfl⟩⟩ := awaitSleep_cases ha <;>
      simp_all [State.ownAnswers]
  · obtain ⟨a, rs, hq, ⟨bytes, -, -, rfl⟩ | ⟨-, rfl⟩⟩ := awaitRead_cases ha <;>
      simp_all [State.ownAnswers]
  · obtain ⟨hw, hn, hr⟩ := h.empty (by simp [hp])
    obtain ⟨words, -, he⟩ | ⟨m, -, he⟩ := verify_cases c s (j.xact s.substep s.arg) <;> rw [he] <;>
      exact ownAnswers_of_empty hw hn hr
  · obtain ⟨hw, hn, hr⟩ := h.empty (by simp [hp])
    obtain ⟨z, hz⟩ := exists_verdict c s.substep j r
    rw [hz s rfl]
    cases z <;> exact ownAnswers_of_empty hw hn hr

theorem settleDown_ownAnswers (h : s.ownAnswers) : (settleDown c s).ownAnswers :=
  settleDown_preserves (P := State.ownAnswers) (fun _ _ => ownAnswers_of_advance) h

theorem stepIn_ownAnswers (h : s.ownAnswers) (hs : stepIn c s = .next t) : t.ownAnswers := by
  cases h0 : s.rst with
  | some n =>
    rw [stepIn_of_rst h0 hs]
    exact ownAnswers_of_empty rfl rfl rfl
  | none =>
    obtain ⟨-, hseq, ⟨-, rfl⟩ | ⟨-, -, rfl⟩ | ⟨q, qs, hb, -, ho⟩⟩ := stepIn_cases h0 hs
    · exact settleDown_ownAnswers h
    · exact h
    · have hp := idle_of_not_busy hseq hb
      obtain ⟨hw, hn, hr⟩ := h.empty (by simp [hp])
      obtain ⟨u, hu, rfl⟩ | ⟨b, -, -, rfl⟩ | ⟨k, r, -, -, -, rfl⟩ | ⟨_, _, _, _, _, _, -, -, -, rfl⟩ :=
        operationIn_idle_cases (s := { s with reqs := qs }) hb ho
      · obtain ⟨j, v, a, -, rfl⟩ := launched_eq_startWith hu
        exact settleDown_ownAnswers (ownAnswers_of_empty hw hn hr)
      all_goals exact ownAnswers_of_empty hw hn hr

theorem input_ownAnswers (h : s.ownAnswers) (hk : s.input k = some t) : t.ownAnswers := by
  obtain ⟨he, rfl⟩ := input_eq_some_iff.mp hk
  obtain ⟨hw, hn, hr⟩ := id h
  cases k with
  | request r => exact h
  | reset n => exact h
  | writeAnswer ok =>
    obtain ⟨hp, hq⟩ : s.phase = .write ∧ s.writeAnswers = [] := by
      simpa [Input.enabled, State.writeOutstanding] using he
    exact ⟨by simp [State.receive, hp, hq], hn, hr⟩
  | wakeup =>
    obtain ⟨hp, hq⟩ : s.phase = .settle ∧ s.wakeups = 0 := by
      simpa [Input.enabled, State.sleepOutstanding] using he
    exact ⟨hw, by simp [State.receive, hp, hq], hr⟩
  | readAnswer x =>
    obtain ⟨hp, hq⟩ : s.phase = .read ∧ s.readAnswers = [] := by
      simpa [Input.enabled, State.readOutstanding] using he
    exact ⟨hw, hn, by simp [State.receive, hp, hq]⟩

end Agents

/-- Settles O4: an agent is enabled (`exists_enabled`) and no other (`enabled_unique`); an input comes from an agent that is
enabled and is the engine's to answer (`enabled_engine_receive`); and each transition takes the answer to its own request
(`ownAnswers_of_advance`). -/
theorem exactlyOneAgentIsEnabled : Obligations.ExactlyOneAgentIsEnabled := by
  refine ⟨fun c s hc hs => ⟨?_, enabled_engine_iff hc hs, fun k => ⟨fun a hk ha => ?_, fun t ht => ?_⟩⟩,
    fun c n => ownAnswers_of_empty rfl rfl rfl, fun c s t h hs => stepIn_ownAnswers h hs,
    fun s t k h hk => input_ownAnswers h hk⟩
  · obtain ⟨a, ha⟩ := exists_enabled c hs
    exact ⟨a, ha, fun b => enabled_unique hs ha⟩
  · simp [State.input, not_enabled_of_agent hk ha]
  · obtain ⟨he, rfl⟩ := input_eq_some_iff.mp ht
    refine ⟨receive_eq s k, fun a hk => ⟨?_, enabled_engine_receive hs hk he⟩⟩
    cases k <;> cases hk <;> rfl

end Sys2Proof.Machine
end

section
/-! PROOFS. The requests of an operation come in the order of its script, and its one response comes last (R63, R178 (c),
R211, R233, R242). -/

namespace Sys2Proof.Machine

section Scripts

variable {c : Config} {s t u : State} {i : Instr} {j : Job} {v : Substep} {a : Nat} {r : XactResult}
  {x : Xact} {f : List Byte} {todo new : List Event}

/-! The write comes first. -/

theorem settleDown_startWith (c : Config) (s : State) (j : Job) (v : Substep) (a : Nat) :
    settleDown c (s.startWith j v a) =
      settleDown c ((s.startWith j v a).assemble c (j.xact v a)) :=
  settleDown_of_some (advance_assemble rfl rfl)

/-- R151: the first event of a transaction is the write of its frame. -/
theorem settleDown_startWith_out (c : Config) (s : State) (j : Job) (v : Substep) (a : Nat) :
    ∃ new, (settleDown c (s.startWith j v a)).out =
      s.out ++ .write c.busAddr (cmdAsm c (j.xact v a).code (j.xact v a).payload) :: new := by
  rw [settleDown_startWith]
  obtain ⟨new, hout⟩ := (ran_settleDown (s := (s.startWith j v a).assemble c (j.xact v a)) (j := j) rfl c).out
  refine ⟨new, hout.trans ?_⟩
  simp [State.startWith]

/-- R89: the frame of a command is that of its transaction. -/
theorem firstXact_of_encodeFrame (h : encodeFrame c i = some f) :
    ∃ x, firstXact c i = some x ∧ cmdAsm c x.code x.payload = f := by
  cases i <;> simp only [encodeFrame, reduceCtorEq] at h
  case setHum b =>
    split at h
    · next hr =>
      cases h
      exact ⟨_, if_pos hr, by simp [cmdAsm, wordBytes, hiByte, loByte]⟩
    · cases h
  all_goals
    cases h
    exact ⟨_, rfl, cmdAsm_nil c _⟩

/-! What is still to be made. -/

theorem xactScript_eq (c : Config) (x : Xact) :
    xactScript c x = .write c.busAddr (cmdAsm c x.code x.payload) :: .sleep x.settle ::
      (if x.words = 0 then [] else [.read c.busAddr (3 * x.words)]) := rfl

theorem xactScript_drop_three (c : Config) (x : Xact) : (xactScript c x).drop 3 = [] := by
  rw [xactScript_eq]
  split <;> rfl

/-- What the operation j in progress has to make after its present transaction (R178). -/
def laterRequests (c : Config) (j : Job) (u : Substep) : List Event :=
  if j = .beginSeq then laterSubsteps c u else []

theorem remaining_of_job (hj : s.job = some j) :
    s.remaining c = (xactScript c (j.xact s.substep s.arg)).drop s.phase.requestsMade ++
      laterRequests c j s.substep := by
  rw [State.remaining, hj]
  rfl

theorem noResponse_iff : NoResponse new ↔ new.filter Event.isResponse = [] := by
  rw [List.filter_eq_nil_iff]
  refine ⟨fun h e he hr => ?_, fun h q hq => h _ hq rfl⟩
  cases e <;> simp only [Event.isResponse, Bool.false_eq_true] at hr
  exact h _ he

/-- A transition short of `RESPOND` makes the first of what is still to be made, or has come to a failure. -/
theorem advance_remaining (h : advance c s = some t) (hp : s.phase ≠ .respond) :
    ∃ new, t.out = s.out ++ new ∧ NoResponse new ∧
      (new.filter Event.isRequest ++ t.remaining c = s.remaining c ∨
        new.filter Event.isRequest = [] ∧ ∃ k, t.pending = some (.fail k)) := by
  have hnil : s.out = s.out ++ [] := (List.append_nil _).symm
  have hnone : NoResponse [] := fun _ => List.not_mem_nil
  have hstep := advance_phaseStep h hp
  obtain ⟨j, hj, hcase⟩ := advance_cases h
  have hrem : t.remaining c = (xactScript c (j.xact s.substep s.arg)).drop t.phase.requestsMade ++
      laterRequests c j s.substep := by
    rw [remaining_of_job (hstep.job.trans hj), hstep.substep, hstep.arg]
  obtain ⟨hp, rfl⟩ | ⟨hp, h⟩ | ⟨hp, h⟩ | ⟨hp, h⟩ | ⟨hp, rfl⟩ | ⟨hp', -⟩ := hcase
  · refine ⟨_, rfl, by simp [NoResponse], .inl ?_⟩
    rw [hrem, remaining_of_job hj, hp]
    rfl
  · obtain ⟨ws, ⟨-, rfl⟩ | ⟨-, rfl⟩⟩ := awaitWrite_cases h
    · refine ⟨_, rfl, by simp [NoResponse], .inl ?_⟩
      rw [hrem, remaining_of_job hj, hp]
      rfl
    · exact ⟨[], hnil, hnone, .inr ⟨rfl, _, rfl⟩⟩
  · obtain ⟨n, -, ⟨h0, rfl⟩ | ⟨h0, rfl⟩⟩ := awaitSleep_cases h
    · refine ⟨[], hnil, hnone, .inl ?_⟩
      rw [hrem, remaining_of_job hj, hp]
      simp [Phase.requestsMade, xactScript_eq, h0]
    · refine ⟨_, rfl, by simp [NoResponse], .inl ?_⟩
      rw [hrem, remaining_of_job hj, hp]
      simp only [Phase.requestsMade, xactScript_eq, h0, if_false, List.drop, List.cons_append,
        List.nil_append]
      rfl
  · obtain ⟨q, rs, -, ⟨bytes, -, -, rfl⟩ | ⟨-, rfl⟩⟩ := awaitRead_cases h
    · refine ⟨[], hnil, hnone, .inl ?_⟩
      rw [hrem, remaining_of_job hj, hp]
      rfl
    · exact ⟨[], hnil, hnone, .inr ⟨rfl, _, rfl⟩⟩
  · have htrace := traceEvents_no_request c (frameChecks c (j.xact s.substep s.arg).words 0 s.rxbuf)
    obtain ⟨words, -, he⟩ | ⟨m, -, he⟩ := verify_cases c s (j.xact s.substep s.arg) <;> rw [he]
    · refine ⟨_, rfl, traceEvents_noResponse c _, .inl ?_⟩
      rw [he] at hrem
      rw [htrace, hrem, remaining_of_job hj, hp]
      rfl
    · exact ⟨_, rfl, traceEvents_noResponse c _, .inr ⟨htrace, _, rfl⟩⟩
  · exact absurd hp' hp

/-- The handling of a result ends the operation, with success only if nothing is left to be made, or goes on with all that
is left. -/
theorem finish_remaining (hj : s.job = some j) (hp : s.phase = .respond) (r : XactResult) :
    (∃ q, (s.finish c j r).phase = .idle ∧ (s.finish c j r).busy = false ∧
        (s.finish c j r).out = s.out ++ [.response q] ∧
        (q.ok = true → s.remaining c = [] ∧ ∀ k, r ≠ .fail k)) ∨
      (s.finish c j r).busy = s.busy ∧ (s.finish c j r).out = s.out ∧
        (s.finish c j r).remaining c = s.remaining c ∧ ∀ k, r ≠ .fail k := by
  have hrest : s.remaining c = laterRequests c j s.substep := by
    rw [remaining_of_job hj, hp, show Phase.respond.requestsMade = 3 from rfl, xactScript_drop_three]
    rfl
  cases r with
  | fail k =>
    rw [finish_fail]
    refine .inl ⟨failResponse k, ?_⟩
    split <;> exact ⟨rfl, rfl, rfl, nofun⟩
  | ok words =>
    by_cases hb : j = .beginSeq
    · subst hb
      rw [hrest, laterRequests, if_pos rfl]
      cases hu : s.substep with
      | identify =>
        rw [finish_beginSeq_identify hu]
        refine .inr ⟨rfl, rfl, ?_, nofun⟩
        rw [remaining_of_job (s := s.nextSubstep .readFeatures) (j := .beginSeq) hj]
        rfl
      | readFeatures =>
        rw [finish_beginSeq_readFeatures hu]
        split
        · refine .inr ⟨rfl, rfl, ?_, nofun⟩
          rw [remaining_of_job (s := s.nextSubstep .initMeas) (j := .beginSeq) hj]
          exact List.append_nil _
        · exact .inl ⟨failResponse .familyMismatch, rfl, rfl, rfl, nofun⟩
      | initMeas =>
        rw [finish_beginSeq_initMeas hu]
        exact .inl ⟨okResponse [], rfl, rfl, rfl, fun _ => ⟨rfl, nofun⟩⟩
    · rw [hrest, laterRequests, if_neg hb]
      obtain ⟨q, hidle, hbusy, -, hout⟩ | ⟨v, hj', -⟩ := finish_ends_or_nextSubstep c s j (.ok words)
      · exact .inl ⟨q, hidle, hbusy, hout, fun _ => ⟨rfl, nofun⟩⟩
      · exact absurd hj' hb

/-- The operation in progress has made a first part of `todo` since s, and if it has not come to a failure the rest of it is
what it has still to make. -/
def Underway (c : Config) (todo : List Event) (s t : State) : Prop :=
  t.sequencerOk = true ∧ t.busy = true ∧ ∃ new, t.out = s.out ++ new ∧ NoResponse new ∧
    new.filter Event.isRequest <+: todo ∧
    ((∀ k, t.pending ≠ some (.fail k)) → new.filter Event.isRequest ++ t.remaining c = todo)

/-- The operation has ended since s with its response as the last event, a success only with all of `todo` made. -/
def Over (todo : List Event) (s t : State) : Prop :=
  t.phase = .idle ∧ t.busy = false ∧ ∃ pre q, t.out = s.out ++ (pre ++ [.response q]) ∧ NoResponse pre ∧
    pre.filter Event.isRequest <+: todo ∧ (q.ok = true → pre.filter Event.isRequest = todo)

theorem Underway.of_phaseStep (h : Underway c todo s t) (ha : advance c t = some u)
    (hp : t.phase ≠ .respond) : Underway c todo s u := by
  obtain ⟨hseq, hbusy, new, hout, hnew, hpre, hall⟩ := h
  have hstep := advance_phaseStep ha hp
  obtain ⟨more, hmore, hno, hrest⟩ := advance_remaining ha hp
  have htodo := hall fun k hk => by
    obtain ⟨-, -, hpend⟩ := sequencerOk_iff.mp hseq
    exact hp (hpend.mp (by simp [hk]))
  refine ⟨sequencerOk_of_advance hseq ha, hstep.busy.trans hbusy, new ++ more,
    by rw [hmore, hout, List.append_assoc],
    fun q hq => (List.mem_append.mp hq).elim (hnew q) (hno q), ?_⟩
  rw [List.filter_append]
  obtain hrest | ⟨hnil, k, hk⟩ := hrest
  · have hjoin : (new.filter Event.isRequest ++ more.filter Event.isRequest) ++ u.remaining c = todo := by
      rw [List.append_assoc, hrest, htodo]
    exact ⟨⟨_, hjoin⟩, fun _ => hjoin⟩
  · rw [hnil, List.append_nil]
    exact ⟨hpre, fun hn => absurd hk (hn k)⟩

theorem Underway.finish (h : Underway c todo s t) (hj : t.job = some j) (hp : t.phase = .respond)
    (hr : t.pending = some r) (ha : advance c t = some (t.finish c j r)) :
    Underway c todo s (t.finish c j r) ∨ Over todo s (t.finish c j r) := by
  obtain ⟨hseq, hbusy, new, hout, hnew, hpre, hall⟩ := h
  have hall' (hn : ∀ k, r ≠ .fail k) := hall fun k hk => hn k (Option.some.inj (hr.symm.trans hk))
  obtain ⟨q, hidle, hnot, hout', hok⟩ | ⟨hbusy', hout', hrem, hn⟩ := finish_remaining (c := c) hj hp r
  · refine .inr ⟨hidle, hnot, new, q, by rw [hout', hout, List.append_assoc], hnew, hpre, fun hq => ?_⟩
    obtain ⟨hnil, hn⟩ := hok hq
    simpa [hnil] using hall' hn
  · exact .inl ⟨sequencerOk_of_advance hseq ha, hbusy'.trans hbusy, new, hout'.trans hout, hnew, hpre,
      fun _ => hrem ▸ hall' hn⟩

/-- A run makes a first part of what the operation had to make, in order (R63, R178 (c)). -/
theorem Underway.settleDown (h : Underway c todo s t) :
    Underway c todo s (settleDown c t) ∨ Over todo s (settleDown c t) := by
  refine settleDown_preserves (P := fun u => Underway c todo s u ∨ Over todo s u) (fun u u' h ha => ?_)
    (.inl h)
  obtain h | ⟨hidle, -⟩ := h
  · by_cases hp : u.phase = .respond
    · obtain ⟨hn, -⟩ | ⟨j, r, -, hj, hr, rfl⟩ := advance_phaseStep_or_finish ha
      · exact absurd hp hn
      · exact h.finish hj hp hr ha
    · exact .inl (h.of_phaseStep ha hp)
  · rw [advance_idle hidle] at ha
    cases ha

/-- R211: where the engine stops, it waits for an answer, or the operation is over. -/
theorem Underway.progress (h : Underway c todo s t) : Progress c todo s (Machine.settleDown c t) := by
  obtain ⟨hseq, hbusy, new, hout, hnew, -, hall⟩ | ⟨-, hnot, pre, q, hout, hpre, hpart, hok⟩ :=
    h.settleDown
  · have hidle : (Machine.settleDown c t).phase ≠ .idle := (sequencerOk_iff.mp hseq).1.mp hbusy
    have hwait := ((advance_eq_none_iff hseq).mp (advance_settleDown c t)).resolve_left hidle
    refine ⟨new, hout, .inl ⟨hbusy, hwait, noResponse_iff.mp hnew, hall fun k hk => ?_⟩⟩
    have hrespond := (sequencerOk_iff.mp hseq).2.2.mp (by simp [hk])
    obtain hw | hw | hw := hwait.waiting <;> cases hrespond.symm.trans hw
  · have hfilter : (pre ++ [Event.response q]).filter Event.isRequest = pre.filter Event.isRequest := by
      simp [Event.isRequest]
    refine ⟨_, hout, .inr ⟨hnot, hfilter ▸ hpart, q, pre, rfl, noResponse_iff.mp hpre, fun hq => ?_⟩⟩
    rw [hfilter]
    exact hok hq

/-- The operation in progress in s has all of its requests still to make since s. -/
theorem underway_self (hs : s.sequencerOk = true) (hb : s.busy = true) :
    Underway c (s.remaining c) s s :=
  ⟨hs, hb, [], (List.append_nil _).symm, fun _ => List.not_mem_nil, List.nil_prefix, fun _ => rfl⟩

/-- R63, R178 (c): an operation that has just been accepted has its script to make. -/
theorem Launch.remaining_eq_script (hl : Launch c i s j v a) :
    (s.startWith j v a).remaining c = script c i := by
  obtain ⟨hj, hv, -, hset, -⟩ := hl
  have hrem : (s.startWith j v a).remaining c = xactScript c (j.xact v a) ++ laterRequests c j v :=
    remaining_of_job rfl
  cases i <;> cases hj
  case setHum b =>
    obtain ⟨_, ⟨⟩, rfl, hr⟩ := hset rfl
    rw [hrem, script, if_pos hr]
    exact List.append_nil _
  case beginSeq =>
    subst hv
    rw [hrem, script, List.append_assoc]
    rfl
  all_goals exact hrem.trans (List.append_nil _)

/-- R233: no read has been requested since s, and no sleep has been answered ahead. -/
def NoReadSince (s t : State) : Prop :=
  t.wakeups = 0 ∧ ∃ new, t.out = s.out ++ new ∧ ∀ b n, .read b n ∉ new

theorem NoReadSince.of_same (hn : t.wakeups = 0) (hout : t.out = s.out) : NoReadSince s t :=
  ⟨hn, [], hout.trans (List.append_nil _).symm, fun _ _ => List.not_mem_nil⟩

/-- R153, R233: a read is requested only by the answer to a sleep. -/
theorem NoReadSince.of_advance (h : NoReadSince s t) (ha : advance c t = some u) : NoReadSince s u := by
  obtain ⟨hn, new, hout, hnew⟩ := h
  have hadd {e : List Event} (he : ∀ b n, .read b n ∉ e) :
      ∃ more, t.out ++ e = s.out ++ more ∧ ∀ b n, .read b n ∉ more :=
    ⟨new ++ e, by rw [hout, List.append_assoc],
      fun b n hm => (List.mem_append.mp hm).elim (hnew b n) (he b n)⟩
  obtain ⟨j, hj, ⟨hp, rfl⟩ | ⟨hp, ha⟩ | ⟨hp, ha⟩ | ⟨hp, ha⟩ | ⟨hp, rfl⟩ | ⟨hp, r, hr, rfl⟩⟩ :=
    advance_cases ha
  · exact ⟨hn, hadd (by simp)⟩
  · obtain ⟨ws, ⟨-, rfl⟩ | ⟨-, rfl⟩⟩ := awaitWrite_cases ha
    · exact ⟨hn, hadd (by simp)⟩
    · exact ⟨hn, new, hout, hnew⟩
  · obtain ⟨n, hn', -⟩ := awaitSleep_cases ha
    cases hn.symm.trans hn'
  · obtain ⟨a, rs, -, ⟨bytes, -, -, rfl⟩ | ⟨-, rfl⟩⟩ := awaitRead_cases ha <;>
      exact ⟨hn, new, hout, hnew⟩
  · have htrace : ∀ b n, .read b n ∉ traceEvents c
        (frameChecks c (j.xact t.substep t.arg).words 0 t.rxbuf) := fun b n hm => by
      have := traceEvents_no_request c (frameChecks c (j.xact t.substep t.arg).words 0 t.rxbuf)
      exact List.filter_eq_nil_iff.mp this _ hm rfl
    obtain ⟨words, -, he⟩ | ⟨m, -, he⟩ := verify_cases c t (j.xact t.substep t.arg) <;> rw [he] <;>
      exact ⟨hn, hadd htrace⟩
  · obtain ⟨z, hz⟩ := exists_verdict c t.substep j r
    rw [hz t rfl]
    cases z with
    | nextSubstep v => exact ⟨hn, new, hout, hnew⟩
    | storeMeas _ | storeRaw _ | complete _ | completeBegin _ => exact ⟨hn, hadd (by simp)⟩

theorem NoReadSince.run (h : NoReadSince s t) (n : Nat) : NoReadSince s (Machine.run c n t) :=
  run_preserves (fun _ _ h ha => h.of_advance ha) n t h

/-- R233: a step that finds no answer to a sleep requests no read, whether a reset lands in it or not. -/
theorem stepIn_noRead (hn : s.wakeups = 0) (h : stepIn c s = .next t) :
    ∃ new, t.out = s.out ++ new ∧ ∀ b n, .read b n ∉ new := by
  have hself := NoReadSince.of_same (s := s) hn rfl
  cases h0 : s.rst with
  | some k =>
    rw [stepIn_of_rst h0 h]
    cases hb : s.busy with
    | true =>
      rw [State.resetEvent_out]
      unfold State.beforeReset
      rw [hb, if_pos rfl]
      exact (hself.run k).2
    | false =>
      obtain he | ⟨q, qs, u, m, -, hu, he⟩ := beforeReset_of_not_busy hb c k <;>
        rw [State.resetEvent_out, he]
      · exact hself.2
      · obtain ⟨j, v, a, -, rfl⟩ := accepted_eq_start hu
        exact (NoReadSince.run (c := c) (t := State.start { s with reqs := qs, substep := v, arg := a } j)
          (.of_same hn rfl) m).2
  | none =>
    obtain ⟨-, -, ⟨-, rfl⟩ | ⟨-, -, rfl⟩ | ⟨q, qs, hb, -, ho⟩⟩ := stepIn_cases h0 h
    · exact (hself.run runFuel).2
    · exact hself.2
    · obtain ⟨u, hu, rfl⟩ | ⟨b, -, -, rfl⟩ | ⟨k, r, -, -, -, rfl⟩ | ⟨_, _, _, _, _, _, hi, -⟩ :=
        operationIn_idle_cases (s := { s with reqs := qs }) hb ho
      · obtain ⟨j, v, a, -, rfl⟩ := launched_eq_startWith hu
        exact (NoReadSince.run (c := c) (t := State.startWith { s with reqs := qs } j v a)
          (.of_same hn rfl) runFuel).2
      · exact ⟨_, rfl, by simp⟩
      · exact ⟨_, rfl, by simp⟩
      · simp [decodeRequest_selectable] at hi

/-- An operation answered at once has no script (R91, R119, R208). -/
theorem script_of_not_launched (hi : i.hostSelectable = true)
    (h : Instr.toJob i = none ∨ ∃ b, i = .setHum b ∧ humInRange (argBits c b) = false) :
    script c i = [] := by
  obtain h | ⟨b, rfl, hr⟩ := h
  · cases i <;> simp [Instr.toJob, Instr.hostSelectable] at h hi <;> rfl
  · rw [script, if_neg (by simp [hr])]

/-- An answer at once is progress over no request. -/
theorem progress_of_response (hb : t.busy = false) (q : Response) (hout : t.out = s.out ++ [.response q]) :
    Progress c [] s t :=
  ⟨_, hout, .inr ⟨hb, by simp [Event.isRequest], q, [], rfl, rfl, fun _ => rfl⟩⟩

/-- R63, R211: what an operation that an idle engine takes comes to, of its script. -/
theorem exec_progress (hb : s.busy = false) (h : exec i s = .next t)
    (hi : i.hostSelectable = true ∨ ∃ x, i = .execute x) :
    Progress Config.sg33 (script Config.sg33 i) s t ∧
      (t.busy = true → t.remaining Config.sg33 ≠ script Config.sg33 i) := by
  obtain ⟨u, hu, rfl⟩ | ⟨b, rfl, hr, rfl⟩ | ⟨k, r, hsel, hn, -, rfl⟩ | ⟨_, _, _, _, _, _, hn, hj, -⟩ :=
    operationIn_idle_cases hb ((operationIn_sg33 i s).trans h)
  · obtain ⟨j, v, a, hl, rfl⟩ := launched_eq_startWith hu
    have hprogress := (underway_self (c := Config.sg33) (s := s.startWith j v a) rfl rfl).progress
    rw [hl.remaining_eq_script] at hprogress
    refine ⟨hprogress, fun hbusy heq => ?_⟩
    obtain ⟨new, hout, ⟨-, -, -, hsum⟩ | ⟨hidle, -⟩⟩ := hprogress
    · obtain ⟨more, hwrite⟩ := settleDown_startWith_out Config.sg33 s j v a
      have hnew : new = _ := List.append_cancel_left (hout.symm.trans hwrite)
      rw [heq, List.append_left_eq_self, hnew] at hsum
      cases hsum
    · simp [hbusy] at hidle
  · rw [script_of_not_launched rfl (.inr ⟨b, rfl, hr⟩)]
    exact ⟨progress_of_response hb _ rfl, fun hbusy => by simp [hb] at hbusy⟩
  · rw [script_of_not_launched hsel (.inl hn)]
    exact ⟨progress_of_response hb _ rfl, fun hbusy => by simp [hb] at hbusy⟩
  · obtain hi | ⟨x, rfl⟩ := hi
    · simp [hi] at hn
    · cases hj

/-- R90, assumption 14: the internal operations show a result and nothing else. -/
theorem exec_internal_result (hb : s.busy = false) (h : exec i s = .next t)
    (hi : i.hostSelectable = false) (hx : ∀ x, i ≠ .execute x) :
    ∃ z, t.out = s.out ++ [.result z] ∧ t.busy = false := by
  obtain ⟨u, hu, -⟩ | ⟨b, rfl, -⟩ | ⟨k, r, hsel, -⟩ | ⟨_, _, _, l, _, z, -, -, rfl, rfl⟩ :=
    operationIn_idle_cases hb ((operationIn_sg33 i s).trans h)
  · obtain ⟨j, v, a, hl, -⟩ := launched_eq_startWith hu
    have hj := hl.job
    cases i <;> simp [Instr.hostSelectable, Instr.toJob] at hi hj hx
  · cases hi
  · simp [hi] at hsel
  · exact ⟨z, by simp [traceEvents_off (c := Config.sg33) rfl], hb⟩

end Scripts

/-- Settles O15: the frame of a command is that of its transaction (`firstXact_of_encodeFrame`), whose write is the first
event of the run (`settleDown_startWith_out`). -/
theorem commandsWriteTheirFrame : Obligations.CommandsWriteTheirFrame := by
  intro i f s h hb
  obtain ⟨x, hx, rfl⟩ := firstXact_of_encodeFrame h
  obtain ⟨j, v, a, hl, -, rfl⟩ := launched_of_firstXact (s := s) hx (.inl rfl)
  obtain ⟨new, hout⟩ := settleDown_startWith_out Config.sg33 s j v a
  exact ⟨_, new, exec_of_launched hb hl, hout⟩

/-- Settles O40: each transition makes the first of what is still to be made (`advance_remaining`), a result ends the
operation or goes on with the rest (`finish_remaining`), and only the answer to a sleep requests a read
(`NoReadSince.of_advance`). -/
theorem operationsMakeTheirRequestsInOrder : Obligations.OperationsMakeTheirRequestsInOrder := by
  refine ⟨fun i s t hb h => ⟨exec_progress hb h, exec_internal_result hb h⟩,
    fun s hinv h0 hb => ⟨_, step_of_busy h0 hinv.sequencer hb, (underway_self hinv.sequencer hb).progress⟩,
    fun c s t new b n hown h hout hmem => ?_⟩
  by_contra hnot
  have hn : s.wakeups = 0 := by
    obtain ⟨-, hwake, -⟩ := hown
    by_cases hp : s.phase = .settle
    · rw [if_pos hp] at hwake
      have : s.wakeups ≠ 1 := fun h => hnot ⟨hp, h⟩
      omega
    · simpa [hp] using hwake
  obtain ⟨new', hout', hno⟩ := stepIn_noRead hn h
  exact hno b n (List.append_cancel_left (hout.symm.trans hout') ▸ hmem)

/-- Settles O48: the range check stands before everything (`operationIn_setHum_outOfRange`); an operation that makes a
transaction writes first, and the others fail with Refused alone. -/
theorem humidityOutOfRangeFailsWithoutTransport :
    Obligations.HumidityOutOfRangeFailsWithoutTransport := by
  refine ⟨fun arg s hr hw hb => ?_, fun c arg s hc hr hw hb => ?_,
    fun i s t new r hb h hout hmem hok hrange hrefused => ?_⟩
  · rw [← operationIn_sg33]
    exact operationIn_setHum_outOfRange hb hr hw
  · rw [execIn_of_wellFormed hc]
    exact operationIn_setHum_outOfRange hb hr hw
  · obtain ⟨u, hu, rfl⟩ | ⟨b, -, -, rfl⟩ | ⟨k, q, -, -, hcause, rfl⟩ | ⟨_, _, _, l, _, z, -, -, rfl, rfl⟩ :=
      operationIn_idle_cases hb ((operationIn_sg33 i s).trans h)
    · obtain ⟨j, v, a, -, rfl⟩ := launched_eq_startWith hu
      obtain ⟨more, hwrite⟩ := settleDown_startWith_out Config.sg33 s j v a
      rw [List.append_cancel_left (hout.symm.trans hwrite)]
      exact ⟨_, List.mem_cons_self⟩
    · obtain rfl : new = [_] := List.append_cancel_left hout.symm
      obtain rfl : r = failResponse .inputRange := by simpa using hmem
      exact absurd rfl hrange
    · obtain rfl : new = [_] := List.append_cancel_left hout.symm
      obtain rfl : r = q := by simpa using hmem
      exact absurd (hcause hok) hrefused
    · rw [traceEvents_off (c := Config.sg33) rfl, List.append_nil] at hout
      obtain rfl : new = [.result z] := List.append_cancel_left hout.symm
      simp at hmem

end Sys2Proof.Machine
end

section
/-! PROOFS. How one transaction goes on to its result, whatever it started from (R151 to R157): with its answers, with a
failed read, and without an answer (R53, R55, R155, R204, R238). -/

namespace Sys2Proof.Machine

section Transaction

variable {c : Config} {s u : State} {i : Instr} {j : Job} {v : Substep} {a : Nat} {x : Xact} {n : Nat}
  {ws : List Bool} {rs : List (Option (List Byte))} {bytes : List Byte} {words : List Word}
  {made : List Event} {o : Host.Outcome State Fault Refusal}

theorem xactScript_of_words (c : Config) (h1 : 1 ≤ x.words) :
    xactScript c x = [.write c.busAddr (cmdAsm c x.code x.payload), .sleep x.settle,
      .read c.busAddr (3 * x.words)] := by
  rw [xactScript_eq, if_neg (Nat.ne_of_gt h1)]

/-- s in the phase p, with these answers to its writes and sleeps still to be taken and these requests made. -/
def State.movedTo (s : State) (p : Phase) (ws : List Bool) (n : Nat) (made : List Event) : State :=
  { s with phase := p, writeAnswers := ws, wakeups := n, out := s.out ++ made }

theorem State.movedTo_self (s : State) : s.movedTo s.phase s.writeAnswers s.wakeups [] = s := by
  simp [State.movedTo]

theorem State.movedTo_movedTo (s : State) (p p' : Phase) (ws ws' : List Bool) (n n' : Nat)
    (made more : List Event) :
    (s.movedTo p ws n made).movedTo p' ws' n' more = s.movedTo p' ws' n' (made ++ more) := by
  simp [State.movedTo]

theorem settleDown_write_ok (hj : s.job = some j) (hp : s.phase = .write)
    (hw : s.writeAnswers = true :: ws) :
    settleDown c s =
      settleDown c (s.movedTo .settle ws s.wakeups [.sleep (j.xact s.substep s.arg).settle]) :=
  settleDown_of_some (advance_write_ok hj hp hw)

theorem settleDown_settle_read (hj : s.job = some j) (hp : s.phase = .settle) (hn : s.wakeups = n + 1)
    (h1 : 1 ≤ (j.xact s.substep s.arg).words) :
    settleDown c s = settleDown c (s.movedTo .read s.writeAnswers n
      [.read c.busAddr (3 * (j.xact s.substep s.arg).words)]) :=
  settleDown_of_some (advance_settle_read hj hp hn h1)

theorem settleDown_settle_done (hj : s.job = some j) (hp : s.phase = .settle) (hn : s.wakeups = n + 1)
    (h0 : (j.xact s.substep s.arg).words = 0) :
    settleDown c s =
      settleDown c (((s.movedTo .settle s.writeAnswers n []).succeed []).finish c j (.ok [])) := by
  rw [settleDown_of_some (advance_settle_done hj hp hn h0),
    settleDown_of_some (advance_respond (s := ({ s with wakeups := n } : State).succeed []) hj rfl rfl),
    State.movedTo, List.append_nil]
  rfl

/-- R152 to R155: a transaction with reply words comes to its read. -/
theorem settleDown_to_read (hj : s.job = some j) (hx : j.xact s.substep s.arg = x) (h1 : 1 ≤ x.words)
    (h : s.restAnswered ws n) :
    settleDown c s =
      settleDown c (s.movedTo .read ws n ((xactScript c x).drop s.phase.requestsMade)) := by
  subst hx
  obtain ⟨hp, hw, hn⟩ | ⟨hp, rfl, hn⟩ | ⟨hp, rfl, rfl⟩ := h
  · rw [settleDown_write_ok hj hp hw,
      settleDown_settle_read (s := s.movedTo .settle ws s.wakeups _) hj rfl hn h1, s.movedTo_movedTo, hp,
      xactScript_of_words c h1]
    rfl
  · rw [settleDown_settle_read hj hp hn h1, hp, xactScript_of_words c h1]
    rfl
  · rw [hp, show Phase.read.requestsMade = 3 from rfl, xactScript_drop_three, ← hp, s.movedTo_self]

/-- The engine with the words of a whole reply (R155, R156). -/
def State.received (c : Config) (s : State) (x : Xact) (bytes : List Byte)
    (rs : List (Option (List Byte))) (words : List Word) : State :=
  (({ s with readAnswers := rs, rxbuf := bytes } : State).checked c
    (frameChecks c x.words 0 bytes)).succeed words

/-- R155 to R157: a reply that verifies comes to its operation's handling of the words. -/
theorem settleDown_read_ok (hj : s.job = some j) (hx : j.xact s.substep s.arg = x) (hp : s.phase = .read)
    (hr : s.readAnswers = some bytes :: rs) (hl : bytes.length = 3 * x.words)
    (hv : frameVal c x.words bytes = .ok words) :
    settleDown c s = settleDown c ((s.received c x bytes rs words).finish c j (.ok words)) := by
  subst hx
  rw [settleDown_of_some (advance_read_ok hj hp hr hl),
    settleDown_of_some (advance_verify (s := { s with readAnswers := rs, rxbuf := bytes, phase := .verify }) hj rfl),
    State.verify, hv]
  exact settleDown_of_some (advance_respond (s := s.received c _ bytes rs words) hj rfl rfl)

/-- R205: a corrupt word comes to its operation's handling of the failure. -/
theorem settleDown_read_corrupt {m : Nat} (hj : s.job = some j) (hx : j.xact s.substep s.arg = x)
    (hp : s.phase = .read) (hr : s.readAnswers = some bytes :: rs) (hl : bytes.length = 3 * x.words)
    (hv : frameVal c x.words bytes = .corrupt m) :
    settleDown c s = settleDown c
      (((({ s with readAnswers := rs, rxbuf := bytes } : State).checked c
        (frameChecks c x.words 0 bytes)).raise .checksumMismatch).finish c j (.fail .checksumMismatch)) := by
  subst hx
  rw [settleDown_of_some (advance_read_ok hj hp hr hl),
    settleDown_of_some (advance_verify (s := { s with readAnswers := rs, rxbuf := bytes, phase := .verify }) hj rfl),
    verify_corrupt (s := { s with readAnswers := rs, rxbuf := bytes, phase := .verify }) hv]
  exact settleDown_of_some (advance_respond (s := (({ s with readAnswers := rs, rxbuf := bytes } : State).checked c
    _).raise .checksumMismatch) hj rfl rfl)

/-- R151 to R157: with its answers there, a transaction with reply words comes to its operation's handling of them. -/
theorem settleDown_of_reply (hj : s.job = some j) (hx : j.xact s.substep s.arg = x) (h1 : 1 ≤ x.words)
    (h : s.restAnswered ws n) (hr : s.readAnswers = some bytes :: rs) (hl : bytes.length = 3 * x.words)
    (hv : frameVal c x.words bytes = .ok words) :
    settleDown c s = settleDown c
      (((s.movedTo .read ws n ((xactScript c x).drop s.phase.requestsMade)).received c x bytes rs
        words).finish c j (.ok words)) := by
  rw [settleDown_to_read hj hx h1 h]
  exact settleDown_read_ok (s := s.movedTo .read ws n _) hj hx rfl hr hl hv

/-- R152 to R154: a transaction without reply words comes to its success by the end of the sleep. -/
theorem settleDown_of_noReply (hj : s.job = some j) (hx : j.xact s.substep s.arg = x) (h0 : x.words = 0)
    (h : s.restAnswered ws n) (hp : s.phase ≠ .read) :
    settleDown c s = settleDown c
      (((s.movedTo .settle ws n ((xactScript c x).drop s.phase.requestsMade)).succeed []).finish c j
        (.ok [])) := by
  subst hx
  obtain ⟨hp, hw, hn⟩ | ⟨hp, rfl, hn⟩ | ⟨hp', -⟩ := h
  · rw [settleDown_write_ok hj hp hw,
      settleDown_settle_done (s := s.movedTo .settle ws s.wakeups _) hj rfl hn h0, s.movedTo_movedTo, hp,
      xactScript_eq, if_pos h0]
    rfl
  · rw [settleDown_settle_done hj hp hn h0, hp, xactScript_eq, if_pos h0]
    rfl
  · exact absurd hp' hp

theorem finish_idle (c : Config) (hb : j ≠ .beginSeq) (r : XactResult) :
    (s.finish c j r).phase = .idle := by
  obtain ⟨q, hidle, -⟩ | ⟨v, hj, -⟩ := finish_ends_or_nextSubstep c s j r
  · exact hidle
  · exact absurd hj hb

/-- R155, R204, R53: a failed read, or one of another length, ends the operation. -/
theorem settleDown_read_fail {q : Option (List Byte)} (hj : s.job = some j)
    (hx : j.xact s.substep s.arg = x) (hp : s.phase = .read) (hr : s.readAnswers = q :: rs)
    (hq : ∀ b, q = some b → b.length ≠ 3 * x.words) :
    settleDown c s = ({ s with readAnswers := rs } : State).finish c j (.fail .transportRead) := by
  subst hx
  rw [settleDown_of_some (advance_read_fail hj hp hr hq), settleDown, runFuel,
    run_respond_fail (s := ({ s with readAnswers := rs } : State).raise .transportRead) hj rfl rfl, finish_fail]
  split <;> rfl

/-- The same, from wherever the transaction waits. -/
theorem settleDown_of_failedReply {q : Option (List Byte)} (hj : s.job = some j)
    (hx : j.xact s.substep s.arg = x) (h1 : 1 ≤ x.words) (h : s.restAnswered ws n)
    (hr : s.readAnswers = q :: rs) (hq : ∀ b, q = some b → b.length ≠ 3 * x.words) :
    settleDown c s = State.finish c
      { s.movedTo .read ws n ((xactScript c x).drop s.phase.requestsMade) with readAnswers := rs } j
      (.fail .transportRead) := by
  rw [settleDown_to_read hj hx h1 h]
  exact settleDown_read_fail (s := s.movedTo .read ws n _) hj hx rfl hr hq

/-! Where it started from. -/

/-- u is the engine with the operation j in progress since s: the architectural state is that of s, and these requests
have been made. -/
structure Resumed (s u : State) (j : Job) (x : Xact) (made : List Event) : Prop where
  arch : SameArch s u
  busy : u.busy = true
  job : u.job = some j
  xact : j.xact u.substep u.arg = x
  out : u.out = s.out ++ made

/-- The engine just after the operation has requested its first write (R151). -/
def State.written (s : State) (j : Job) (v : Substep) (a : Nat) : State :=
  (s.startWith j v a).assemble Config.sg33 (j.xact v a)

theorem resumed_written (s : State) (j : Job) (v : Substep) (a : Nat) :
    Resumed s (s.written j v a) j (j.xact v a)
      [.write Config.sg33.busAddr (cmdAsm Config.sg33 (j.xact v a).code (j.xact v a).payload)] :=
  ⟨.refl s, rfl, rfl, rfl, rfl⟩

theorem busy_of_job (hseq : s.sequencerOk = true) (hj : s.job = some j) : s.busy = true := by
  obtain ⟨-, hjob, -⟩ := sequencerOk_iff.mp hseq
  simpa [hj] using hjob.symm

theorem resumed_self (hinv : s.Inv Config.sg33) (hj : s.job = some j) :
    Resumed s s j (j.xact s.substep s.arg) [] :=
  ⟨.refl s, busy_of_job hinv.sequencer hj, hj, rfl, (List.append_nil _).symm⟩

/-- R170, R178, R150: an operation that makes a transaction writes its frame and goes on. -/
theorem exec_eq_written (hx : firstXact Config.sg33 i = some x) (hb : s.busy = false) :
    ∃ j v a, Launch Config.sg33 i s j v a ∧ j.xact v a = x ∧
      exec i s = .next (settleDown Config.sg33 (s.written j v a)) := by
  obtain ⟨j, v, a, hl, hlaunch, hxact⟩ := launched_of_firstXact (s := s) hx (.inl rfl)
  exact ⟨j, v, a, hlaunch, hxact,
    (exec_of_launched hb hl).trans (congrArg _ (settleDown_startWith Config.sg33 s j v a))⟩

/-- R26: a state between two steps in which an operation is in progress goes on with it. -/
theorem step_eq_settleDown (hinv : s.Inv Config.sg33) (h0 : s.rst = none) (hj : s.job = some j) :
    step s = .next (settleDown Config.sg33 s) :=
  step_of_job hinv h0 hj

theorem Launch.beginSeq_iff (hl : Launch c i s j v a) : j = .beginSeq ↔ i = .beginSeq := by
  rw [← (toJob_eq_iff (i := i)).2.2, hl.job, Option.some.injEq]

/-! Without an answer. -/

/-- R55, R238: an engine whose next answer has not come stays as it is. -/
theorem Resumed.waitsIn {p : Phase} (h : Resumed s u j x made)
    (hwait : u.awaitsAnswer) (hp : u.phase = p) :
    WaitsIn (.next (settleDown Config.sg33 u)) s j u.substep p made u.writeAnswers u.wakeups
      u.readAnswers := by
  have hnone : advance Config.sg33 u = none := by
    obtain ⟨hp, hw⟩ | ⟨hp, hn⟩ | ⟨hp, hr⟩ := hwait
    · rw [advance_write h.job hp, awaitWrite_eq_none_iff]
      exact hw
    · rw [advance_settle h.job hp, awaitSleep_eq_none_iff]
      exact hn
    · rw [advance_read h.job hp, awaitRead_eq_none_iff]
      exact hr
  rw [settleDown_of_none hnone]
  exact ⟨u, rfl, h.arch, h.busy, h.job, rfl, hp, rfl, rfl, rfl, h.out⟩

theorem Resumed.movedTo (h : Resumed s u j x made) (p : Phase) (ws : List Bool) (n : Nat)
    (more : List Event) : Resumed s (u.movedTo p ws n more) j x (made ++ more) :=
  ⟨h.arch, h.busy, h.job, h.xact, by simp [State.movedTo, h.out]⟩

/-- The engine waits for the end of the sleep. -/
theorem Resumed.waitsIn_settle (h : Resumed s u j x made) (hp : u.phase = .write)
    (hw : u.writeAnswers = true :: ws) (hn : u.wakeups = 0) :
    WaitsIn (.next (settleDown Config.sg33 u)) s j u.substep .settle (made ++ [.sleep x.settle]) ws 0
      u.readAnswers := by
  have hx := h.xact
  subst hx
  rw [settleDown_of_some (advance_write_ok h.job hp hw), ← hn]
  exact (h.movedTo .settle ws u.wakeups _).waitsIn (.inr (.inl ⟨rfl, hn⟩)) rfl

/-- The engine waits for the reply. -/
theorem Resumed.waitsIn_read (h : Resumed s u j x made) (h1 : 1 ≤ x.words) (hrest : u.restAnswered ws n)
    (hr : u.readAnswers = []) :
    WaitsIn (.next (settleDown Config.sg33 u)) s j u.substep .read
      (made ++ (xactScript Config.sg33 x).drop u.phase.requestsMade) ws n [] := by
  rw [settleDown_to_read h.job h.xact h1 hrest, ← hr]
  exact (h.movedTo .read ws n _).waitsIn (.inr (.inr ⟨rfl, hr⟩)) rfl

theorem launched_withReadAnswers (h : launched c s i = some u) (rs : List (Option (List Byte))) :
    launched c { s with readAnswers := rs } i = some { u with readAnswers := rs } := by
  cases i <;> simp only [launched, accepted, accepted.guarded, Option.ite_none_left_eq_some,
    Option.ite_none_right_eq_some, Option.some.injEq, reduceCtorEq] at h ⊢
  case setHum b => exact ⟨h.1, h.2.1, h.2.2 ▸ rfl⟩
  case execute x => exact ⟨h.1, h.2 ▸ rfl⟩
  case meas | measRaw => exact ⟨h.1, h.2 ▸ rfl⟩
  all_goals exact h ▸ rfl

end Transaction

/-- Settles O8: each wait has no transition (`Resumed.waitsIn`), and the transitions before it are those of the answers
that have come. -/
theorem unansweredRequestWaitsForEver : Obligations.UnansweredRequestWaitsForEver := by
  refine ⟨fun s h0 hseq hwait => ?_, fun i j x s hx hj hb => ?_, fun j s ws hinv h0 hj => ?_⟩
  · have hb : s.busy = true := (sequencerOk_iff.mp hseq).1.mpr fun hidle => by
      obtain hw | hw | hw := hwait.waiting <;> cases hidle.symm.trans hw
    rw [step_of_busy h0 hseq hb, settleDown_of_none ((advance_eq_none_iff hseq).mpr (.inr hwait))]
  · obtain ⟨j', v, a, hl, rfl, he⟩ := exec_eq_written hx hb
    obtain rfl : j' = j := Option.some.inj (hl.job.symm.trans hj)
    obtain rfl := hl.substep.trans (if_congr hl.beginSeq_iff rfl rfl)
    rw [he]
    have hres := resumed_written s j' (if i = .beginSeq then .identify else s.substep) a
    refine ⟨fun hw => ?_, fun ws hw => ⟨fun hn => ?_, fun n hn h1 hr => ?_⟩⟩
    · rw [← hw]
      exact hres.waitsIn (.inl ⟨rfl, hw⟩) rfl
    · exact hres.waitsIn_settle rfl hw hn
    · rw [← xactScript_of_words _ h1]
      exact hres.waitsIn_read h1 (.inl ⟨rfl, hw, hn⟩) hr
  · have hres := resumed_self hinv hj
    rw [step_eq_settleDown hinv h0 hj]
    refine ⟨fun hp hw hn => hres.waitsIn_settle hp hw hn, fun n hn h1 hr => ?_⟩
    have hscript := xactScript_of_words Config.sg33 h1
    refine ⟨fun hp hw => ?_, fun hp => ?_⟩
    · have := hres.waitsIn_read h1 (.inl ⟨hp, hw, hn⟩) hr
      rwa [hp, hscript] at this
    · have := hres.waitsIn_read h1 (.inr (.inl ⟨hp, rfl, hn⟩)) hr
      rwa [hp, hscript] at this

/-- Settles O36: the failed read ends the operation from wherever it is waited for (`settleDown_read_fail`), nothing
stored. -/
theorem failedReadEndsTheTransaction : Obligations.FailedReadEndsTheTransaction := by
  refine ⟨fun i x s ws n rs hx h1 hb hw hn hr => ?_, fun j s rs hinv h0 hj hp hr => ?_⟩
  · obtain ⟨j, v, a, hl, rfl, he⟩ := exec_eq_written hx hb
    rw [he, settleDown_of_failedReply (s := s.written j v a) rfl rfl h1 (.inl ⟨rfl, hw, hn⟩) hr nofun,
      ← propext hl.beginSeq_iff, ← xactScript_of_words _ h1]
    refine ⟨finish_fail_failsWith Config.sg33 (u := { State.movedTo _ _ _ _ _ with readAnswers := rs })
      (.refl s) (List.append_assoc _ _ _), ?_⟩
    · rintro _ ⟨⟩
      rw [finish_fail]
      split <;> rfl
  · rw [step_eq_settleDown hinv h0 hj, settleDown_read_fail hj rfl hp hr nofun]
    refine ⟨finish_fail_failsWith Config.sg33 (u := { s with readAnswers := rs }) (.refl s)
      (List.append_nil _).symm, ?_⟩
    rintro _ ⟨⟩
    rw [finish_fail]
    split <;> rfl

/-- Settles O37: a read of another length and a failed one take the same transition (`advance_read_fail`), to the end of
the operation. -/
theorem readOfTheWrongLengthIsAFailure : Obligations.ReadOfTheWrongLengthIsAFailure := by
  refine ⟨fun i x s bytes ws n rs hx h1 hb hw hn hr hl => ?_, fun j s bytes rs h0 hj hp hr hl => ?_⟩
  · obtain ⟨j, v, a, hu, -, rfl⟩ := launched_of_firstXact (s := s) hx (.inl rfl)
    have hbad (b : List Byte) (hb : some bytes = some b) : b.length ≠ 3 * (j.xact v a).words :=
      Option.some.inj hb ▸ hl
    have hu' := launched_withReadAnswers hu (none :: rs)
    rw [exec_of_launched hb hu, exec_of_launched (s := { s with readAnswers := none :: rs }) hb hu']
    refine congrArg _ ?_
    calc settleDown Config.sg33 (s.startWith j v a)
      _ = _ := settleDown_startWith _ s j v a
      _ = _ := settleDown_of_failedReply (s := s.written j v a) rfl rfl h1 (.inl ⟨rfl, hw, hn⟩) hr hbad
      _ = _ := (settleDown_of_failedReply (s := State.written { s with readAnswers := none :: rs } j v a)
        rfl rfl h1 (.inl ⟨rfl, hw, hn⟩) rfl nofun).symm
      _ = _ := (settleDown_startWith _ { s with readAnswers := none :: rs } j v a).symm
  · have hbad (b : List Byte) (hb : some bytes = some b) : b.length ≠ 3 * (j.xact s.substep s.arg).words :=
      Option.some.inj hb ▸ hl
    cases hseq : s.sequencerOk with
    | false =>
      rw [step_of_not_sequencerOk h0 hseq]
      exact (step_of_not_sequencerOk (s := { s with readAnswers := none :: rs }) h0 hseq).symm
    | true =>
      have hb := busy_of_job hseq hj
      rw [step_of_busy h0 hseq hb, step_of_busy (s := { s with readAnswers := none :: rs }) h0 hseq hb,
        settleDown_read_fail hj rfl hp hr hbad,
        settleDown_read_fail (s := { s with readAnswers := none :: rs }) hj rfl hp rfl nofun]

end Sys2Proof.Machine
end

section
/-! PROOFS. Each command with its answers: the words of a reply that verifies, or success by the end of the sleep (R150,
R154, R171 to R177). -/

namespace Sys2Proof.Machine

section Replies

variable {s u : State} {i : Instr} {j : Job} {x : Xact} {n : Nat} {ws : List Bool}
  {rs : List (Option (List Byte))} {bytes : List Byte} {words : List Word} {r : Response}
  {made : List Event} {k : Byte}

/-- R156: the checks of a reply leave the last checksum computed, and nothing on the trace port (R219, TRACE_EN off). -/
theorem received_sg33 (s : State) (h1 : 1 ≤ x.words) (hl : bytes.length = 3 * x.words)
    (rs : List (Option (List Byte))) (words : List Word) :
    s.received Config.sg33 x bytes rs words = { s with
      phase := .respond, pending := some (.ok words), rxbuf := bytes, readAnswers := rs
      acc := accAfterChecks s.acc (frameChecks Config.sg33 x.words 0 bytes), bitcnt := 0 } := by
  have hbit : bitcntAfter (frameChecks Config.sg33 x.words 0 bytes).length s.bitcnt = 0 := by
    rw [bitcntAfter_frameChecks, hl]
    exact if_neg (by omega)
  rw [State.received, checked_sg33, hbit]
  rfl

theorem settleDown_finish (c : Config) (hb : j ≠ .beginSeq) (q : XactResult) :
    settleDown c (s.finish c j q) = s.finish c j q :=
  settleDown_of_none (advance_idle (finish_idle c hb q))

/-- R151 to R157: where a transaction with its reply ends, in every piece of state. -/
theorem settleDown_reply_eq (hb : j ≠ .beginSeq) (hj : s.job = some j) (hx : j.xact s.substep s.arg = x)
    (h1 : 1 ≤ x.words) (h : s.restAnswered ws n) (hr : s.readAnswers = some bytes :: rs)
    (hl : bytes.length = 3 * x.words) (hv : frameVal Config.sg33 x.words bytes = .ok words)
    (hk : accAfterChecks s.acc (frameChecks Config.sg33 x.words 0 bytes) = k) :
    settleDown Config.sg33 s = State.finish Config.sg33 { s with
      phase := .respond, pending := some (.ok words), rxbuf := bytes, writeAnswers := ws, wakeups := n
      readAnswers := rs, acc := k, bitcnt := 0
      out := s.out ++ (xactScript Config.sg33 x).drop s.phase.requestsMade } j (.ok words) := by
  rw [settleDown_of_reply hj hx h1 h hr hl hv, settleDown_finish _ hb, received_sg33 _ h1 hl, ← hk]
  rfl

/-- The same of an operation that is accepted with its answers there. -/
theorem runJob_reply_eq (hb : j ≠ .beginSeq) (hx : j.xact s.substep s.arg = x) (h1 : 1 ≤ x.words)
    (hw : s.writeAnswers = true :: ws) (hn : s.wakeups = n + 1) (hr : s.readAnswers = some bytes :: rs)
    (hl : bytes.length = 3 * x.words) (hv : frameVal Config.sg33 x.words bytes = .ok words)
    (hk : accAfterChecks (accAfterGroups Config.sg33 s.acc x.payload)
      (frameChecks Config.sg33 x.words 0 bytes) = k) :
    s.runJob Config.sg33 j = State.finish Config.sg33 { s with
      busy := true, job := some j, phase := .respond, pending := some (.ok words)
      txbuf := cmdAsm Config.sg33 x.code x.payload, rxbuf := bytes
      writeAnswers := ws, wakeups := n, readAnswers := rs, acc := k, bitcnt := 0
      out := s.out ++ xactScript Config.sg33 x } j (.ok words) := by
  subst hx
  refine (settleDown_startWith Config.sg33 s j s.substep s.arg).trans ?_
  refine (settleDown_reply_eq (s := s.written j s.substep s.arg) hb rfl rfl h1 (.inl ⟨rfl, hw, hn⟩) hr hl
    hv hk).trans ?_
  rw [State.written, State.assemble_out, List.append_assoc]
  rfl

theorem Resumed.endsWith (h : Resumed s u j x made) (r : Response) :
    EndsWith (.next (u.complete r)) s made r u.writeAnswers u.wakeups u.readAnswers :=
  ⟨_, rfl, h.arch, rfl, rfl, rfl, rfl, rfl, rfl, rfl, by rw [State.complete_out, h.out]⟩

/-- The words of a reply that verifies, for an operation that only responds with them. -/
theorem Resumed.endsWith_reply (h : Resumed s u j x made) (hb : j ≠ .beginSeq) (h1 : 1 ≤ x.words)
    (hrest : u.restAnswered ws n) (hr : u.readAnswers = some bytes :: rs)
    (hl : bytes.length = 3 * x.words) (hv : frameVal Config.sg33 x.words bytes = .ok words)
    (hfin : ∀ t : State, t.finish Config.sg33 j (.ok words) = t.complete r) :
    EndsWith (.next (settleDown Config.sg33 u)) s
      (made ++ (xactScript Config.sg33 x).drop u.phase.requestsMade) r ws n rs := by
  rw [settleDown_reply_eq hb h.job h.xact h1 hrest hr hl hv rfl, hfin]
  obtain ⟨harch, hbusy, hj, hx, hout⟩ := h.movedTo .respond ws n
    ((xactScript Config.sg33 x).drop u.phase.requestsMade)
  exact Resumed.endsWith (u := { u.movedTo .respond ws n _ with
    pending := _, rxbuf := bytes, readAnswers := rs, acc := _, bitcnt := 0 }) ⟨harch, hbusy, hj, hx, hout⟩ r

/-- Success by the end of the sleep. -/
theorem Resumed.endsWith_noReply (h : Resumed s u j x made) (hb : j ≠ .beginSeq) (h0 : x.words = 0)
    (hrest : u.restAnswered ws n) (hp : u.phase ≠ .read)
    (hfin : ∀ t : State, t.finish Config.sg33 j (.ok []) = t.complete r) :
    EndsWith (.next (settleDown Config.sg33 u)) s
      (made ++ (xactScript Config.sg33 x).drop u.phase.requestsMade) r ws n u.readAnswers := by
  rw [settleDown_of_noReply h.job h.xact h0 hrest hp, settleDown_finish _ hb, hfin]
  obtain ⟨harch, hbusy, hj, hx, hout⟩ := h.movedTo .settle ws n
    ((xactScript Config.sg33 x).drop u.phase.requestsMade)
  exact Resumed.endsWith (u := (u.movedTo .settle ws n _).succeed []) ⟨harch, hbusy, hj, hx, hout⟩ r

theorem exec_endsWith_reply (hi : firstXact Config.sg33 i = some x) (hj : Instr.toJob i = some j)
    (hbegin : j ≠ .beginSeq) (h1 : 1 ≤ x.words) (hb : s.busy = false) (hw : s.writeAnswers = true :: ws)
    (hn : s.wakeups = n + 1) (hr : s.readAnswers = some bytes :: rs) (hl : bytes.length = 3 * x.words)
    (hv : frameVal Config.sg33 x.words bytes = .ok words)
    (hfin : ∀ t : State, t.finish Config.sg33 j (.ok words) = t.complete r) :
    EndsWith (exec i s) s (xactScript Config.sg33 x) r ws n rs := by
  obtain ⟨j', v, a, hl', rfl, he⟩ := exec_eq_written hi hb
  obtain rfl : j' = j := Option.some.inj (hl'.job.symm.trans hj)
  rw [he]
  exact (resumed_written s j' v a).endsWith_reply hbegin h1 (.inl ⟨rfl, hw, hn⟩) hr hl hv hfin

theorem step_endsWith_reply (hx : j.xact s.substep s.arg = x) (hbegin : j ≠ .beginSeq) (h1 : 1 ≤ x.words)
    (hinv : s.Inv Config.sg33) (h0 : s.rst = none) (hj : s.job = some j) (h : s.restAnswered ws n)
    (hr : s.readAnswers = some bytes :: rs) (hl : bytes.length = 3 * x.words)
    (hv : frameVal Config.sg33 x.words bytes = .ok words)
    (hfin : ∀ t : State, t.finish Config.sg33 j (.ok words) = t.complete r) :
    EndsWith (step s) s ((xactScript Config.sg33 x).drop s.phase.requestsMade) r ws n rs := by
  subst hx
  rw [step_eq_settleDown hinv h0 hj]
  exact (resumed_self hinv hj).endsWith_reply hbegin h1 h hr hl hv hfin

theorem exec_endsWith_noReply (hi : firstXact Config.sg33 i = some x) (hj : Instr.toJob i = some j)
    (hbegin : j ≠ .beginSeq) (h0 : x.words = 0) (hb : s.busy = false) (hw : s.writeAnswers = true :: ws)
    (hn : s.wakeups = n + 1) (hfin : ∀ t : State, t.finish Config.sg33 j (.ok []) = t.complete r) :
    EndsWith (exec i s) s (xactScript Config.sg33 x) r ws n s.readAnswers := by
  obtain ⟨j', v, a, hl', rfl, he⟩ := exec_eq_written hi hb
  obtain rfl : j' = j := Option.some.inj (hl'.job.symm.trans hj)
  rw [he]
  exact (resumed_written s j' v a).endsWith_noReply hbegin h0 (.inl ⟨rfl, hw, hn⟩) nofun hfin

/-- R154: a transaction without reply words does not wait in `READ`. -/
theorem State.Inv.phase_ne_read {c : Config} (hinv : s.Inv c) (hj : s.job = some j)
    (h0 : (j.xact s.substep s.arg).words = 0) : s.phase ≠ .read := fun hp => by
  have := hinv.readWords j hj hp
  omega

theorem step_endsWith_noReply (hx : j.xact s.substep s.arg = x) (hbegin : j ≠ .beginSeq)
    (hwords : x.words = 0) (hinv : s.Inv Config.sg33) (h0 : s.rst = none) (hj : s.job = some j)
    (h : s.restAnswered ws n) (hfin : ∀ t : State, t.finish Config.sg33 j (.ok []) = t.complete r) :
    EndsWith (step s) s ((xactScript Config.sg33 x).drop s.phase.requestsMade) r ws n s.readAnswers := by
  subst hx
  rw [step_eq_settleDown hinv h0 hj]
  exact (resumed_self hinv hj).endsWith_noReply hbegin hwords h (hinv.phase_ne_read hj hwords) hfin

theorem Xact.wellFormed_of_bounds (hg : x.payload.length ≤ 1) (hw : x.words ≤ 3) :
    x.wellFormed = true := (Xact.wellFormed_iff x).mpr ⟨hg, hw⟩

/-- R135: a group of two bytes and their checksum verifies. -/
theorem wordChk_crc8 (c : Config) (b0 b1 : Byte) : wordChk c b0 b1 (crc8 c [b0, b1]) = true :=
  (wordChk_iff ..).mpr rfl

theorem frameVal_group (c : Config) (b0 b1 : Byte) :
    frameVal c 1 [b0, b1, crc8 c [b0, b1]] = .ok [b0 ++ b1] := by
  rw [frameVal, frameValFrom_cons, if_pos (wordChk_crc8 ..), wordDec_eq_append]
  rfl

theorem frameVal_pair (c : Config) (b0 b1 d0 d1 : Byte) :
    frameVal c 2 [b0, b1, crc8 c [b0, b1], d0, d1, crc8 c [d0, d1]] = .ok [b0 ++ b1, d0 ++ d1] := by
  rw [frameVal, frameValFrom_cons, if_pos (wordChk_crc8 ..), frameValFrom_cons, if_pos (wordChk_crc8 ..),
    wordDec_eq_append, wordDec_eq_append]
  rfl

theorem accAfterChecks_pair (c : Config) (a b0 b1 d0 d1 : Byte) :
    accAfterChecks a (frameChecks c 2 0 [b0, b1, crc8 c [b0, b1], d0, d1, crc8 c [d0, d1]]) =
      crc8 c [d0, d1] := by
  simp [accAfterChecks, frameChecks, wordChk_crc8]

/-- R177: the requests of `SETHUM`. -/
theorem xactScript_setHum (c : Config) (p : Word) :
    xactScript c (xactSetHum p) = [.write c.busAddr ([0x20#8, 0x61#8] ++ groupEnc c p), .sleep 10] := by
  have hframe : cmdAsm c (xactSetHum p).code (xactSetHum p).payload = [0x20#8, 0x61#8] ++ groupEnc c p :=
    by simp [cmdAsm, xactSetHum, wordBytes, hiByte, loByte]
  rw [xactScript_eq, hframe]
  rfl

end Replies

/-- Settles O41: IDENT responds with the words of its reply. -/
theorem identReturnsTheSerialIdentifier : Obligations.IdentReturnsTheSerialIdentifier := by
  intro s bytes words ws n rs hr hl hv
  exact ⟨fun hb hw hn => exec_endsWith_reply (i := .ident) (j := .ident) rfl rfl nofun (by decide) hb hw hn hr
      hl hv fun _ => rfl,
    fun hinv h0 hj h => step_endsWith_reply (x := xactIdent) (j := .ident) rfl nofun (by decide) hinv h0 hj h hr hl hv
      fun _ => rfl⟩

/-- Settles O42: the handling of FEAT's word is the family test. -/
theorem featTestsTheFamily : Obligations.FeatTestsTheFamily := by
  intro s b0 b1 ws n rs hr
  have hfin (t : State) : t.finish Config.sg33 .feat (.ok [b0 ++ b1]) =
      t.complete (if (b0 ++ b1) &&& 0x00F0#16 = Config.sg33.expectedFamily then okResponse [b0 ++ b1]
        else failResponse .familyMismatch) := by
    simp only [State.finish, familyOk, familyMatch, beq_iff_eq, State.failWith]
    split <;> rfl
  exact ⟨fun hb hw hn => exec_endsWith_reply (i := .feat) (j := .feat) rfl rfl nofun (by decide) hb hw hn hr
      rfl (frameVal_group ..) hfin,
    fun hinv h0 hj h => step_endsWith_reply (x := xactFeat) (j := .feat) rfl nofun (by decide) hinv h0 hj h hr rfl
      (frameVal_group ..) hfin⟩

/-- Settles O43: INIT ends by its sleep. -/
theorem initSucceedsAfterTheSettleDelay : Obligations.InitSucceedsAfterTheSettleDelay := by
  intro s ws n
  exact ⟨fun hb hw hn => exec_endsWith_noReply (i := .init) (j := .init) rfl rfl nofun rfl hb hw hn fun _ => rfl,
    fun hinv h0 hj h => step_endsWith_noReply (x := xactInit) (j := .init) rfl nofun rfl hinv h0 hj h fun _ => rfl⟩

/-- Settles O47: SETHUM ends by its sleep, with the operand it latched. -/
theorem setHumWritesTheScaledOperand : Obligations.SetHumWritesTheScaledOperand := by
  intro s ws n
  simp only [← xactScript_setHum]
  refine ⟨fun arg harg hb hw hn => ?_, fun hinv h0 hj h => ?_⟩
  · have harg' := argBits_of_inRange harg
    have hi : firstXact Config.sg33 (.setHum arg) = some (xactSetHum (humScale arg)) := by
      rw [firstXact, harg', if_pos ((humInRange_iff arg).mpr harg)]
      rfl
    refine ⟨exec_endsWith_noReply (j := .setHum) hi rfl nofun rfl hb hw hn fun _ => rfl, fun t ht => ?_⟩
    obtain ⟨j, v, a, hl, -, he⟩ := exec_eq_written hi hb
    cases he.symm.trans ht
    obtain ⟨_, ⟨⟩, ha, -⟩ := hl.setHum (Option.some.inj hl.job.symm)
    exact (ran_settleDown (s := s.written j v a) (j := j) rfl _).arg.trans (ha.trans harg')
  · refine ⟨step_endsWith_noReply (x := xactSetHum (humScale s.arg)) (j := .setHum) rfl nofun rfl hinv h0 hj h fun _ => rfl, fun t ht => ?_⟩
    cases (step_eq_settleDown hinv h0 hj).symm.trans ht
    exact (ran_settleDown hj _).arg

/-- Settles O34: a transaction without reply words succeeds by the end of its sleep, in which `RXBUF` is not written. -/
theorem zeroWordExecuteSucceedsWithoutARead : Obligations.ZeroWordExecuteSucceedsWithoutARead := by
  refine ⟨fun x s ws n hg hwords => ?_, fun c j s t hj hp hwords h => ?_⟩
  · have hscript : xactScript Config.sg33 x =
        [.write Config.sg33.busAddr (cmdAsm Config.sg33 x.code x.payload), .sleep x.settle] := by
      rw [xactScript_eq, if_pos hwords]
    have hx : firstXact Config.sg33 (.execute x) = some x :=
      if_pos (Xact.wellFormed_of_bounds hg (by omega))
    simp only [← hscript]
    exact ⟨fun hb hw hn => exec_endsWith_noReply (j := .execute x) hx rfl nofun hwords hb hw hn fun _ => rfl,
      fun hinv h0 hj h => step_endsWith_noReply (j := .execute x) rfl nofun hwords hinv h0 hj h fun _ => rfl⟩
  · rw [advance_settle hj hp] at h
    obtain ⟨n, -, ⟨-, rfl⟩ | ⟨h1, -⟩⟩ := awaitSleep_cases h
    · exact ⟨rfl, rfl, rfl⟩
    · exact absurd hwords h1

/-- Settles O33: the end of the run in every piece of state (`runJob_reply_eq`, `settleDown_reply_eq`). -/
theorem executeReturnsTheVerifiedWords : Obligations.ExecuteReturnsTheVerifiedWords := by
  intro x s bytes words ws n rs hg h1 h3 hr hl hv
  simp only [← xactScript_of_words Config.sg33 h1]
  refine ⟨fun hb hw hn => ?_, fun hinv h0 hj h => ?_⟩
  · rw [exec_execute_idle hb (Xact.wellFormed_of_bounds hg h3),
      runJob_reply_eq (j := .execute x) nofun rfl h1 hw hn hr hl hv rfl]
    rfl
  · rw [step_eq_settleDown hinv h0 hj, settleDown_reply_eq (j := .execute x) nofun hj rfl h1 h hr hl hv rfl]
    rfl

/-- Settles O44: the end of the run in every piece of state, and `ECO2` and `TVOC` are the two words. -/
theorem measStoresTheVerifiedPair : Obligations.MeasStoresTheVerifiedPair := by
  intro s b0 b1 d0 d1 ws n rs hr
  have hv := frameVal_pair Config.sg33 b0 b1 d0 d1
  refine ⟨fun hb hw hn => ?_, fun hinv h0 hj h => ?_⟩
  · rw [exec_meas_idle hb, runJob_reply_eq (j := .meas) (x := xactMeas) nofun rfl (by decide) hw hn hr
      rfl hv (accAfterChecks_pair ..)]
    rfl
  · rw [step_eq_settleDown hinv h0 hj, settleDown_reply_eq (j := .meas) (x := xactMeas) nofun hj rfl
      (by decide) h hr rfl hv (accAfterChecks_pair ..)]
    rfl

/-- Settles O45: the end of the run in every piece of state, and `RAWH2` and `RAWETH` are the two words. -/
theorem measRawStoresTheVerifiedPair : Obligations.MeasRawStoresTheVerifiedPair := by
  intro s b0 b1 d0 d1 ws n rs hr
  have hv := frameVal_pair Config.sg33 b0 b1 d0 d1
  refine ⟨fun hb hw hn => ?_, fun hinv h0 hj h => ?_⟩
  · rw [exec_measRaw_idle hb, runJob_reply_eq (j := .measRaw) (x := xactMeasRaw) nofun rfl (by decide) hw hn hr
      rfl hv (accAfterChecks_pair ..)]
    rfl
  · rw [step_eq_settleDown hinv h0 hj, settleDown_reply_eq (j := .measRaw) (x := xactMeasRaw) nofun hj rfl
      (by decide) h hr rfl hv (accAfterChecks_pair ..)]
    rfl

end Sys2Proof.Machine
end

section
/-! PROOFS. `BEGIN` goes from substep to substep until one fails (R178, R207, R210, D14). -/

namespace Sys2Proof.Machine

section Begin

variable {s u : State} {v v' : Substep} {n : Nat} {ws : List Bool} {rs : List (Option (List Byte))}
  {bytes : List Byte} {words : List Word} {w : Word} {made before : List Event} {x : Xact}

/-- `BEGIN` has been in progress since s, has made these requests before the substep v, and the write of v. -/
structure SubstepWritten (s u : State) (v : Substep) (before : List Event) (ws : List Bool) (n : Nat)
    (rs : List (Option (List Byte))) : Prop where
  resumed : Resumed s u .beginSeq (xactBegin v)
    (before ++ [.write Config.sg33.busAddr (cmdAsm Config.sg33 (xactBegin v).code (xactBegin v).payload)])
  substep : u.substep = v
  phase : u.phase = .write
  writeAnswers : u.writeAnswers = ws
  wakeups : u.wakeups = n
  readAnswers : u.readAnswers = rs

/-- The requests made by the end of the substep. -/
theorem SubstepWritten.script (h : SubstepWritten s u v before ws n rs) :
    (before ++ [.write Config.sg33.busAddr (cmdAsm Config.sg33 (xactBegin v).code (xactBegin v).payload)]) ++
      (xactScript Config.sg33 (xactBegin v)).drop u.phase.requestsMade =
        before ++ xactScript Config.sg33 (xactBegin v) := by
  rw [h.phase, List.append_assoc]
  rfl

theorem exec_beginSeq_written (hb : s.busy = false) :
    ∃ u, exec .beginSeq s = .next (settleDown Config.sg33 u) ∧
      SubstepWritten s u .identify [] s.writeAnswers s.wakeups s.readAnswers := by
  obtain ⟨j, v, a, hl, -, he⟩ := exec_eq_written (i := .beginSeq) rfl hb
  obtain rfl := hl.beginSeq_iff.mpr rfl
  obtain rfl : v = .identify := hl.substep
  exact ⟨_, he, resumed_written s .beginSeq .identify a, rfl, rfl, rfl, rfl, rfl⟩

theorem settleDown_nextSubstep (hj : u.job = some .beginSeq) :
    settleDown Config.sg33 (u.nextSubstep v) =
      settleDown Config.sg33 ((u.nextSubstep v).assemble Config.sg33 (xactBegin v)) :=
  settleDown_of_some (advance_assemble (s := u.nextSubstep v) (j := .beginSeq) hj rfl)

/-- R178: a substep whose words lead on is followed by the write of the next one. -/
theorem Resumed.next_substep (h : Resumed s u .beginSeq x made) (h1 : 1 ≤ x.words)
    (hrest : u.restAnswered ws n) (hr : u.readAnswers = some bytes :: rs)
    (hl : bytes.length = 3 * x.words) (hv : frameVal Config.sg33 x.words bytes = .ok words)
    (hfin : ∀ t : State, t.substep = u.substep →
      t.finish Config.sg33 .beginSeq (.ok words) = t.nextSubstep v') :
    ∃ u', settleDown Config.sg33 u = settleDown Config.sg33 u' ∧
      SubstepWritten s u' v' (made ++ (xactScript Config.sg33 x).drop u.phase.requestsMade) ws n rs := by
  obtain ⟨harch, hbusy, hj, hx, hout⟩ := h.movedTo .read ws n
    ((xactScript Config.sg33 x).drop u.phase.requestsMade)
  rw [settleDown_of_reply h.job h.xact h1 hrest hr hl hv, received_sg33 _ h1 hl, hfin,
    settleDown_nextSubstep]
  · refine ⟨_, rfl, ⟨harch, hbusy, hj, rfl, ?_⟩, rfl, rfl, rfl, rfl, rfl⟩
    exact (congrArg (· ++ _) hout).trans (List.append_assoc _ _ _)
  · exact hj
  · rfl

/-- R178: the words of IDENT lead on whatever they are. -/
theorem Resumed.after_identify (h : Resumed s u .beginSeq (xactBegin .identify) made)
    (hsub : u.substep = .identify) (hrest : u.restAnswered ws n) (hr : u.readAnswers = some bytes :: rs)
    (hl : bytes.length = 9) (hv : frameVal Config.sg33 3 bytes = .ok words) :
    ∃ u', settleDown Config.sg33 u = settleDown Config.sg33 u' ∧ SubstepWritten s u' .readFeatures
      (made ++ (xactScript Config.sg33 (xactBegin .identify)).drop u.phase.requestsMade) ws n rs :=
  h.next_substep (by decide) hrest hr hl hv fun _ ht => finish_beginSeq_identify (ht.trans hsub)

/-- R172: the family test on the one word of FEAT. -/
theorem familyOk_singleton : familyOk Config.sg33 [w] = true ↔ w &&& 0x00F0#16 = Config.sg33.expectedFamily := by
  simp [familyOk, familyMatch]

/-- R178, R207: the word of FEAT leads on if its family is the expected one. -/
theorem Resumed.after_readFeatures (h : Resumed s u .beginSeq (xactBegin .readFeatures) made)
    (hsub : u.substep = .readFeatures) (hrest : u.restAnswered ws n)
    (hr : u.readAnswers = some bytes :: rs) (hl : bytes.length = 3)
    (hv : frameVal Config.sg33 1 bytes = .ok [w])
    (hfamily : w &&& 0x00F0#16 = Config.sg33.expectedFamily) :
    ∃ u', settleDown Config.sg33 u = settleDown Config.sg33 u' ∧ SubstepWritten s u' .initMeas
      (made ++ (xactScript Config.sg33 (xactBegin .readFeatures)).drop u.phase.requestsMade) ws n rs :=
  h.next_substep (by decide) hrest hr hl hv fun _ ht =>
    (finish_beginSeq_readFeatures (ht.trans hsub)).trans (if_pos (familyOk_singleton.mpr hfamily))

/-- `BEGIN` has ended with success and `READY` is 1. -/
def EndsReady (o : Host.Outcome State Fault Refusal) (s : State) (events : List Event)
    (ws : List Bool) (n : Nat) (rs : List (Option (List Byte))) : Prop :=
  ∃ t, o = .next t ∧ t.ready = true ∧ SameResults s t ∧ t.cacc = s.cacc ∧ t.busy = false ∧
    t.phase = .idle ∧ t.writeAnswers = ws ∧ t.wakeups = n ∧ t.readAnswers = rs ∧
    t.out = s.out ++ events ++ [.response ⟨true, .none, []⟩]

/-- R178 (c): the third substep ends `BEGIN` with success. -/
theorem Resumed.after_initMeas (h : Resumed s u .beginSeq (xactBegin .initMeas) made)
    (hsub : u.substep = .initMeas) (hrest : u.restAnswered ws n) (hp : u.phase ≠ .read) :
    EndsReady (.next (settleDown Config.sg33 u)) s
      (made ++ (xactScript Config.sg33 (xactBegin .initMeas)).drop u.phase.requestsMade) ws n
      u.readAnswers := by
  obtain ⟨⟨hres, -, hcacc⟩, -, -, -, hout⟩ := h.movedTo .settle ws n
    ((xactScript Config.sg33 (xactBegin .initMeas)).drop u.phase.requestsMade)
  rw [settleDown_of_noReply h.job h.xact rfl hrest hp, finish_beginSeq_initMeas,
    settleDown_of_none (advance_idle rfl)]
  · exact ⟨_, rfl, rfl, hres, hcacc, rfl, rfl, rfl, rfl, rfl, congrArg (· ++ _) hout⟩
  · exact hsub

/-! The failures. -/

theorem Resumed.fails_write (h : Resumed s u .beginSeq x made) (hp : u.phase = .write)
    (hw : u.writeAnswers = false :: ws) :
    FailsWith (.next (settleDown Config.sg33 u)) s True made .transportWrite ws u.wakeups u.readAnswers := by
  rw [← eq_self Job.beginSeq]
  exact run_write_failsWith (n := 16) h.job hp hw h.arch h.out

theorem Resumed.fails_read {q : Option (List Byte)} (h : Resumed s u .beginSeq x made) (h1 : 1 ≤ x.words)
    (hrest : u.restAnswered ws n) (hr : u.readAnswers = q :: rs)
    (hq : ∀ b, q = some b → b.length ≠ 3 * x.words) :
    FailsWith (.next (settleDown Config.sg33 u)) s True
      (made ++ (xactScript Config.sg33 x).drop u.phase.requestsMade) .transportRead ws n rs := by
  obtain ⟨harch, -, -, -, hout⟩ := h.movedTo .read ws n
    ((xactScript Config.sg33 x).drop u.phase.requestsMade)
  rw [← eq_self Job.beginSeq, settleDown_of_failedReply h.job h.xact h1 hrest hr hq]
  exact finish_fail_failsWith Config.sg33 (u := { u.movedTo .read ws n _ with readAnswers := rs }) harch hout

theorem Resumed.fails_checksum {k : Nat} (h : Resumed s u .beginSeq x made) (h1 : 1 ≤ x.words)
    (hrest : u.restAnswered ws n) (hr : u.readAnswers = some bytes :: rs)
    (hl : bytes.length = 3 * x.words) (hv : frameVal Config.sg33 x.words bytes = .corrupt k) :
    FailsWith (.next (settleDown Config.sg33 u)) s True
      (made ++ (xactScript Config.sg33 x).drop u.phase.requestsMade) .checksumMismatch ws n rs := by
  have hx := h.xact
  subst hx
  obtain ⟨harch, -, hj, -, hout⟩ := h.movedTo .read ws n
    ((xactScript Config.sg33 (Job.beginSeq.xact u.substep u.arg)).drop u.phase.requestsMade)
  rw [← eq_self Job.beginSeq, settleDown_to_read h.job rfl h1 hrest]
  exact run_read_failsWith (n := 15) hj rfl hr hl hv harch hout

theorem Resumed.fails_family (h : Resumed s u .beginSeq (xactBegin .readFeatures) made)
    (hsub : u.substep = .readFeatures) (hrest : u.restAnswered ws n)
    (hr : u.readAnswers = some bytes :: rs) (hl : bytes.length = 3)
    (hv : frameVal Config.sg33 1 bytes = .ok [w])
    (hfamily : w &&& 0x00F0#16 ≠ Config.sg33.expectedFamily) :
    FailsWith (.next (settleDown Config.sg33 u)) s True
      (made ++ (xactScript Config.sg33 (xactBegin .readFeatures)).drop u.phase.requestsMade)
      .familyMismatch ws n rs := by
  have h1 : 1 ≤ (xactBegin .readFeatures).words := by decide
  obtain ⟨harch, -, -, -, hout⟩ := h.movedTo .respond ws n
    ((xactScript Config.sg33 (xactBegin .readFeatures)).drop u.phase.requestsMade)
  have hfin (t : State) (ht : t.substep = .readFeatures) :
      t.finish Config.sg33 .beginSeq (.ok [w]) = t.finish Config.sg33 .beginSeq (.fail .familyMismatch) :=
    (finish_beginSeq_readFeatures ht).trans (if_neg fun hok => hfamily (familyOk_singleton.mp hok))
  rw [← eq_self Job.beginSeq, settleDown_of_reply h.job h.xact h1 hrest hr hl hv,
    received_sg33 _ h1 hl, hfin, settleDown_of_none (advance_idle rfl)]
  · exact finish_fail_failsWith Config.sg33 (u := { u.movedTo .respond ws n _ with
      pending := _, rxbuf := bytes, readAnswers := rs, acc := _, bitcnt := 0 }) harch hout
  · exact hsub

theorem resumed_beginSeq (hinv : s.Inv Config.sg33) (hj : s.job = some .beginSeq) (hsub : s.substep = v) :
    Resumed s s .beginSeq (xactBegin v) [] :=
  hsub ▸ resumed_self hinv hj

/-! The same, of a substep whose write has been requested. -/

theorem SubstepWritten.restAnswered (h : SubstepWritten s u v before (true :: ws) (n + 1) rs) :
    u.restAnswered ws n :=
  .inl ⟨h.phase, h.writeAnswers, h.wakeups⟩

theorem SubstepWritten.waits (h : SubstepWritten s u v before [] n rs) :
    WaitsIn (.next (settleDown Config.sg33 u)) s .beginSeq v .write
      (before ++ [.write Config.sg33.busAddr (cmdAsm Config.sg33 (xactBegin v).code (xactBegin v).payload)])
      [] n rs := by
  obtain ⟨hres, rfl, hp, hw, rfl, rfl⟩ := h
  rw [← hw]
  exact hres.waitsIn (.inl ⟨hp, hw⟩) hp

theorem SubstepWritten.fails (h : SubstepWritten s u v before (false :: ws) n rs) :
    FailsWith (.next (settleDown Config.sg33 u)) s True
      (before ++ [.write Config.sg33.busAddr (cmdAsm Config.sg33 (xactBegin v).code (xactBegin v).payload)])
      .transportWrite ws n rs := by
  obtain ⟨hres, -, hp, hw, rfl, rfl⟩ := h
  exact hres.fails_write hp hw

theorem SubstepWritten.after_readFeatures
    (h : SubstepWritten s u .readFeatures before (true :: ws) (n + 1) (some bytes :: rs))
    (hl : bytes.length = 3) (hv : frameVal Config.sg33 1 bytes = .ok [w])
    (hfamily : w &&& 0x00F0#16 = Config.sg33.expectedFamily) :
    ∃ u', settleDown Config.sg33 u = settleDown Config.sg33 u' ∧ SubstepWritten s u' .initMeas
      (before ++ xactScript Config.sg33 (xactBegin .readFeatures)) ws n rs := by
  rw [← h.script]
  exact h.resumed.after_readFeatures h.substep h.restAnswered h.readAnswers hl hv hfamily

theorem SubstepWritten.after_initMeas (h : SubstepWritten s u .initMeas before (true :: ws) (n + 1) rs) :
    EndsReady (.next (settleDown Config.sg33 u)) s
      (before ++ xactScript Config.sg33 (xactBegin .initMeas)) ws n rs := by
  rw [← h.script, ← h.readAnswers]
  exact h.resumed.after_initMeas h.substep h.restAnswered (by simp [h.phase])

end Begin

/-- Settles O49: each good substep is followed by the write of the next (`Resumed.next_substep`), the third by the end with
`READY` 1 (`Resumed.after_initMeas`). -/
theorem beginSucceedsWithAllThreeSubsteps : Obligations.BeginSucceedsWithAllThreeSubsteps := by
  refine ⟨fun s id words rs hr hl hv => ⟨fun b0 b1 ws n rs' hrs hfamily => ?_, fun n => ?_⟩,
    fun s b0 b1 n rs hr hfamily hinv h0 hj hsub => ?_, fun s ws n hinv h0 hj hsub h => ?_⟩
  · subst hrs
    have hrest {u : State} {before : List Event} (h : SubstepWritten s u .readFeatures before
        (true :: true :: ws) (n + 2) (some [b0, b1, crc8 Config.sg33 [b0, b1]] :: rs')) :
        EndsReady (.next (settleDown Config.sg33 u)) s (before ++
          xactScript Config.sg33 (xactBegin .readFeatures) ++ xactScript Config.sg33 (xactBegin .initMeas))
          ws n rs' := by
      obtain ⟨u', he, h'⟩ := h.after_readFeatures rfl (frameVal_group ..) hfamily
      rw [he]
      exact h'.after_initMeas
    refine ⟨fun hb hw hn => ?_, fun hinv h0 hj hsub h => ?_⟩
    · obtain ⟨u, he, hu⟩ := exec_beginSeq_written hb
      rw [hw, hn, hr] at hu
      obtain ⟨u', he', hu'⟩ := hu.resumed.after_identify hu.substep hu.restAnswered hu.readAnswers hl hv
      rw [he, he']
      rw [hu.script] at hu'
      exact hrest hu'
    · obtain ⟨u', he', hu'⟩ := (resumed_beginSeq hinv hj hsub).after_identify hsub h hr hl hv
      rw [step_eq_settleDown hinv h0 hj, he']
      exact hrest hu'
  · refine ⟨fun hb hw hn => ?_, fun hinv h0 hj hsub h => ?_⟩
    · obtain ⟨u, he, hu⟩ := exec_beginSeq_written hb
      rw [hw, hn, hr] at hu
      obtain ⟨u', he', hu'⟩ := hu.resumed.after_identify hu.substep hu.restAnswered hu.readAnswers hl hv
      rw [he, he']
      rw [hu.script] at hu'
      exact hu'.waits
    · obtain ⟨u', he', hu'⟩ := (resumed_beginSeq hinv hj hsub).after_identify hsub h hr hl hv
      rw [step_eq_settleDown hinv h0 hj, he']
      exact hu'.waits
  · have hres := resumed_beginSeq hinv hj hsub
    rw [step_eq_settleDown hinv h0 hj]
    refine ⟨fun ws h => ?_, fun h => ?_⟩ <;>
      obtain ⟨u', he', hu'⟩ := hres.after_readFeatures hsub h hr rfl (frameVal_group ..) hfamily <;>
      rw [he']
    · exact hu'.after_initMeas
    · exact hu'.waits
  · rw [step_eq_settleDown hinv h0 hj]
    exact (resumed_beginSeq hinv hj hsub).after_initMeas hsub h
      (hinv.phase_ne_read hj (by rw [hsub]; rfl))

/-- Settles O50: the substeps before the failing one lead on (`Resumed.next_substep`), and that one ends `BEGIN` with its
cause. -/
theorem beginStopsAtTheFirstFailingSubstep : Obligations.BeginStopsAtTheFirstFailingSubstep := by
  refine ⟨fun s ws hb hw => ?_, fun s ft w ws n rs hinv h0 hj hsub h hr hl hv hfamily => ?_,
    fun s ws n a rs hb hw hn hr => ?_⟩
  · obtain ⟨u, he, hu⟩ := exec_beginSeq_written hb
    rw [hw] at hu
    rw [he]
    exact hu.fails
  · rw [step_eq_settleDown hinv h0 hj]
    exact (resumed_beginSeq hinv hj hsub).fails_family hsub h hr hl hv hfamily
  · obtain ⟨u, he, hu⟩ := exec_beginSeq_written hb
    rw [hw, hn, hr] at hu
    rw [he]
    have hrest := hu.restAnswered
    refine ⟨fun hbad => ?_, fun id ha hl => ⟨fun k hv => ?_, fun words hv => ?_⟩⟩
    · have := hu.resumed.fails_read (by decide) hrest hu.readAnswers hbad
      rwa [hu.script] at this
    · have := hu.resumed.fails_checksum (by decide) hrest (ha ▸ hu.readAnswers) hl hv
      rwa [hu.script] at this
    · obtain ⟨u', he', hu'⟩ := hu.resumed.after_identify hu.substep hrest (ha ▸ hu.readAnswers) hl hv
      rw [hu.script] at hu'
      rw [he']
      refine ⟨fun ws' hw' => (hw' ▸ hu').fails, fun ws' n' b rs' hw' hn' hrs' => ?_⟩
      subst hw' hn' hrs'
      have hrest' := hu'.restAnswered
      refine ⟨fun hbad => ?_, fun ft hb hl' => ?_⟩
      · have := hu'.resumed.fails_read (by decide) hrest' hu'.readAnswers hbad
        rwa [hu'.script] at this
      · subst hb
        refine ⟨fun k hv' => ?_, fun w hv' => ⟨fun hfamily => ?_, fun hfamily ws'' hw'' => ?_⟩⟩
        · have := hu'.resumed.fails_checksum (by decide) hrest' hu'.readAnswers hl' hv'
          rwa [hu'.script] at this
        · have := hu'.resumed.fails_family hu'.substep hrest' hu'.readAnswers hl' hv' hfamily
          rwa [hu'.script] at this
        · obtain ⟨u'', he'', hu''⟩ := hu'.after_readFeatures hl' hv' hfamily
          rw [he'']
          exact (hw'' ▸ hu'').fails

end Sys2Proof.Machine
end

section
/-! PROOFS. The trace port shows the checks of each reply and nothing else of the run depends on it (R219, D20). -/

namespace Sys2Proof.Machine

section Trace

variable {c : Config} {s t u : State} {j : Job} {x : Xact} {w i : Nat} {b : Bool} {r : XactResult}
  {rx bytes : List Byte} {rs : List (Option (List Byte))}

/-! The checks are those of the words up to the first that does not verify. -/

/-- The check of word m of a frame, shown with the index i + m. -/
def checkAt (c : Config) (rx : List Byte) (i m : Nat) : Check :=
  ⟨i + m, crc8 c [rx.getD (3 * m) 0, rx.getD (3 * m + 1) 0], rx.getD (3 * m + 2) 0⟩

theorem checkAt_succ (c : Config) (b0 b1 q : Byte) (rest : List Byte) (i m : Nat) :
    checkAt c (b0 :: b1 :: q :: rest) i (m + 1) = checkAt c rest (i + 1) m := by
  rw [checkAt, Nat.add_comm m, ← Nat.add_assoc, Nat.add_comm 1, checkAt]
  rfl

theorem frameChecks_eq_map (c : Config) (w i : Nat) (rx : List Byte) :
    frameChecks c w i rx = (List.range (frameChecks c w i rx).length).map (checkAt c rx i) := by
  induction w generalizing i rx with
  | zero => rfl
  | succ w ih =>
    match rx with
    | b0 :: b1 :: q :: rest =>
      rw [frameChecks, List.length_cons, List.range_succ_eq_map, List.map_cons, List.map_map,
        show checkAt c (b0 :: b1 :: q :: rest) i ∘ Nat.succ = checkAt c rest (i + 1) from
          funext (checkAt_succ c b0 b1 q rest i)]
      refine congrArg₂ _ rfl ?_
      split
      · exact ih (i + 1) rest
      · rfl
    | [] | [_] | [_, _] => rfl

/-- R134, R219: how many words of a frame are checked. -/
theorem length_frameChecks (h : 3 * w ≤ rx.length) :
    (∃ words, frameValFrom c w i rx = .ok words ∧ (frameChecks c w i rx).length = w) ∨
      ∃ k, frameValFrom c w i rx = .corrupt k ∧ i + (frameChecks c w i rx).length = k + 1 := by
  induction w generalizing i rx with
  | zero => exact .inl ⟨[], rfl, rfl⟩
  | succ w ih =>
    match rx with
    | b0 :: b1 :: q :: rest =>
      rw [frameValFrom_cons, frameChecks]
      by_cases hq : wordChk c b0 b1 q = true
      · rw [if_pos hq, if_pos hq, List.length_cons]
        obtain ⟨words, hv, hlen⟩ | ⟨k, hv, hlen⟩ :=
          ih (i := i + 1) (rx := rest) (by simp only [List.length_cons] at h; omega) <;> rw [hv]
        · exact .inl ⟨_, rfl, by rw [hlen]⟩
        · exact .inr ⟨k, rfl, by omega⟩
      · rw [if_neg hq, if_neg hq]
        exact .inr ⟨i, rfl, rfl⟩
    | [] | [_] | [_, _] => simp [Nat.mul_succ] at h

theorem checkedWords_eq_length (h : 3 * w ≤ rx.length) :
    checkedWords c w rx = (frameChecks c w 0 rx).length := by
  rw [checkedWords, frameVal]
  obtain ⟨words, hv, hlen⟩ | ⟨k, hv, hlen⟩ := length_frameChecks (c := c) (i := 0) h <;> rw [hv]
  · exact hlen.symm
  · simpa using hlen.symm

/-- R219: the trace port shows the checks. -/
theorem traceEvents_eq_shownChecks (h : 3 * w ≤ rx.length) :
    traceEvents c (frameChecks c w 0 rx) = shownChecks c w rx := by
  rw [traceEvents, shownChecks, checkedWords_eq_length h]
  split
  · rw [frameChecks_eq_map, List.map_map, List.length_map, List.length_range]
    simp [checkAt, Function.comp_def]
  · rfl

/-! Nothing else depends on TRACE_EN. -/

theorem frameValFrom_traceEn (c : Config) (b : Bool) (w i : Nat) (rx : List Byte) :
    frameValFrom { c with traceEn := b } w i rx = frameValFrom c w i rx := by
  induction w generalizing i rx with
  | zero => rfl
  | succ w ih =>
    match rx with
    | b0 :: b1 :: q :: rest =>
      rw [frameValFrom_cons, frameValFrom_cons, ih]
      rfl
    | [] | [_] | [_, _] => rfl

theorem frameChecks_traceEn (c : Config) (b : Bool) (w i : Nat) (rx : List Byte) :
    frameChecks { c with traceEn := b } w i rx = frameChecks c w i rx := by
  induction w generalizing i rx with
  | zero => rfl
  | succ w ih =>
    match rx with
    | b0 :: b1 :: q :: rest =>
      rw [frameChecks, frameChecks, ih]
      rfl
    | [] | [_] | [_, _] => rfl

theorem eraseTrace_traceEvents (c : Config) (l : List Check) :
    (traceEvents c l).filter (fun e => !e.isTrace) = [] := by
  unfold traceEvents
  split
  · simp [Event.isTrace]
  · rfl

theorem verify_eraseTrace (c : Config) (b : Bool) (s : State) (x : Xact) :
    s.eraseTrace.verify { c with traceEn := false } x =
      (s.verify { c with traceEn := b } x).eraseTrace := by
  have hchecked (l : List Check) : s.eraseTrace.checked { c with traceEn := false } l =
      (s.checked { c with traceEn := b } l).eraseTrace := by
    simp [State.checked, State.eraseTrace, eraseTrace_traceEvents, traceEvents_off]
  have hval : frameVal { c with traceEn := false } x.words s.rxbuf =
      frameVal { c with traceEn := b } x.words s.rxbuf := by
    rw [frameVal, frameVal, frameValFrom_traceEn, frameValFrom_traceEn c b]
  rw [State.verify, hchecked, frameChecks_traceEn, ← frameChecks_traceEn c b,
    show s.eraseTrace.rxbuf = s.rxbuf from rfl, hval]
  obtain ⟨words, hv, he⟩ | ⟨m, hv, he⟩ := verify_cases { c with traceEn := b } s x <;> rw [he, hv] <;> rfl

theorem finish_eraseTrace (c : Config) (s : State) (j : Job) (r : XactResult) :
    s.eraseTrace.finish c j r = (s.finish c j r).eraseTrace := by
  obtain ⟨z, hz⟩ := exists_verdict c s.substep j r
  rw [hz s rfl, hz s.eraseTrace rfl]
  cases z <;> simp [State.conclude, State.complete, State.eraseTrace, Event.isTrace, State.storeMeas,
    State.storeRaw, State.nextSubstep]

/-- A transition without the trace port is the transition with it, the trace events apart. -/
theorem advance_eraseTrace (h : advance { c with traceEn := b } s = some t) :
    advance { c with traceEn := false } s.eraseTrace = some t.eraseTrace := by
  obtain ⟨j, hj, ⟨hp, rfl⟩ | ⟨hp, h⟩ | ⟨hp, h⟩ | ⟨hp, h⟩ | ⟨hp, rfl⟩ | ⟨hp, r, hr, rfl⟩⟩ := advance_cases h
  · refine (advance_assemble (s := s.eraseTrace) hj hp).trans (congrArg some ?_)
    rw [State.eraseTrace, State.eraseTrace, State.assemble_out, List.filter_append]
    rfl
  · obtain ⟨ws, ⟨hw, rfl⟩ | ⟨hw, rfl⟩⟩ := awaitWrite_cases h
    · refine (advance_write_ok (s := s.eraseTrace) hj hp hw).trans ?_
      simp [State.eraseTrace, Event.isTrace]
    · exact advance_write_fail (s := s.eraseTrace) hj hp hw
  · obtain ⟨n, hn, ⟨h0, rfl⟩ | ⟨h0, rfl⟩⟩ := awaitSleep_cases h
    · exact advance_settle_done (s := s.eraseTrace) hj hp hn h0
    · refine (advance_settle_read (s := s.eraseTrace) hj hp hn (Nat.pos_of_ne_zero h0)).trans ?_
      simp [State.eraseTrace, Event.isTrace]
  · obtain ⟨q, rs, hq, ⟨bytes, rfl, hl, rfl⟩ | ⟨hbad, rfl⟩⟩ := awaitRead_cases h
    · exact advance_read_ok (s := s.eraseTrace) hj hp hq hl
    · exact advance_read_fail (s := s.eraseTrace) hj hp hq hbad
  · exact (advance_verify (s := s.eraseTrace) hj hp).trans (congrArg some (verify_eraseTrace c b s _))
  · exact (advance_respond (s := s.eraseTrace) hj hp hr).trans (congrArg some (finish_eraseTrace ..))

theorem settleDown_eraseTrace (c : Config) (b : Bool) (s : State) :
    (settleDown { c with traceEn := b } s).eraseTrace =
      settleDown { c with traceEn := false } s.eraseTrace := by
  refine (run_rel (R := fun s s' => s' = s.eraseTrace) (fun s s' t hs ha => ?_) (fun s s' hs ha => ?_)
    runFuel rfl).symm
  · subst hs
    exact ⟨_, advance_eraseTrace ha, rfl⟩
  · subst hs
    rw [advance_eq_none_cases] at ha ⊢
    exact ha

/-! Behind the checks of a reply. -/

/-- No reply has come since s, and nothing has been shown. -/
def NoReplySince (s t : State) : Prop :=
  t.readAnswers = [] ∧ t.phase ≠ .verify ∧ ∃ new, t.out = s.out ++ new ∧ new.filter Event.isTrace = []

theorem NoReplySince.of_advance (h : NoReplySince s t) (ha : advance c t = some u) : NoReplySince s u := by
  obtain ⟨hr, hp, new, hout, hnew⟩ := h
  have hadd {e : List Event} (he : e.filter Event.isTrace = []) :
      ∃ more, t.out ++ e = s.out ++ more ∧ more.filter Event.isTrace = [] :=
    ⟨new ++ e, by rw [hout, List.append_assoc], by rw [List.filter_append, hnew, he]; rfl⟩
  obtain ⟨j, hj, ⟨-, rfl⟩ | ⟨-, ha⟩ | ⟨-, ha⟩ | ⟨-, ha⟩ | ⟨hp', -⟩ | ⟨-, r, -, rfl⟩⟩ := advance_cases ha
  · exact ⟨hr, nofun, hadd rfl⟩
  · obtain ⟨ws, ⟨-, rfl⟩ | ⟨-, rfl⟩⟩ := awaitWrite_cases ha
    · exact ⟨hr, nofun, hadd rfl⟩
    · exact ⟨hr, nofun, new, hout, hnew⟩
  · obtain ⟨n, -, ⟨-, rfl⟩ | ⟨-, rfl⟩⟩ := awaitSleep_cases ha
    · exact ⟨hr, nofun, new, hout, hnew⟩
    · exact ⟨hr, nofun, hadd rfl⟩
  · obtain ⟨q, rs, hq, -⟩ := awaitRead_cases ha
    cases hr.symm.trans hq
  · exact absurd hp' hp
  · obtain ⟨z, hz⟩ := exists_verdict c t.substep j r
    rw [hz t rfl]
    cases z with
    | nextSubstep v => exact ⟨hr, nofun, new, hout, hnew⟩
    | storeMeas _ | storeRaw _ | complete _ | completeBegin _ => exact ⟨hr, nofun, hadd rfl⟩

theorem NoReplySince.settleDown (h : NoReplySince s t) : NoReplySince s (Machine.settleDown c t) :=
  settleDown_preserves (fun _ _ h ha => h.of_advance ha) h

/-- Behind the handling of a result comes its response, or `BEGIN` goes on and shows nothing until another reply comes. -/
theorem settleDown_finish_out (hj : t.job = some j) (r : XactResult) :
    ∃ rest, (settleDown c (t.finish c j r)).out = t.out ++ rest ∧
      ((j ≠ .beginSeq ∨ ∃ k, r = .fail k) → ∃ q, rest = [.response q]) ∧
      (t.readAnswers = [] → rest.filter Event.isTrace = []) := by
  obtain ⟨q, hidle, -, -, hout⟩ | ⟨v, rfl, -, hnext⟩ := finish_ends_or_nextSubstep c t j r
  · rw [settleDown_of_none (advance_idle hidle)]
    exact ⟨_, hout, fun _ => ⟨q, rfl⟩, fun _ => rfl⟩
  · rw [hnext]
    obtain ⟨new, hout⟩ := (ran_settleDown (s := t.nextSubstep v) (j := .beginSeq) hj c).out
    refine ⟨new, hout, ?_, fun hr => ?_⟩
    · rintro (hn | ⟨k, rfl⟩)
      · exact absurd rfl hn
      · have hphase : Phase.idle = .assemble := congrArg State.phase hnext
        cases hphase
    · obtain ⟨-, -, new', hout', hnew⟩ := NoReplySince.settleDown (c := c) (s := t)
        (t := t.nextSubstep v) ⟨hr, nofun, [], (List.append_nil _).symm, rfl⟩
      exact List.append_cancel_left (hout.symm.trans hout') ▸ hnew

/-- R219: a reply that comes to a waiting engine shows its checks. -/
theorem settleDown_reply_shown (hj : s.job = some j) (hx : j.xact s.substep s.arg = x)
    (hp : s.phase = .read) (hr : s.readAnswers = some bytes :: rs) (hl : bytes.length = 3 * x.words) :
    ∃ rest, (settleDown c s).out = s.out ++ shownChecks c x.words bytes ++ rest ∧
      ((j ≠ .beginSeq ∨ ∃ k, frameVal c x.words bytes = .corrupt k) → ∃ q, rest = [.response q]) ∧
      (rs = [] → rest.filter Event.isTrace = []) := by
  rw [← traceEvents_eq_shownChecks hl.ge]
  cases hv : frameVal c x.words bytes with
  | ok words =>
    rw [settleDown_read_ok hj hx hp hr hl hv]
    obtain ⟨rest, hout, hresponse, htrace⟩ := settleDown_finish_out (c := c)
      (t := s.received c x bytes rs words) hj (.ok words)
    exact ⟨rest, hout, fun h => hresponse (.inl (h.resolve_right nofun)), htrace⟩
  | corrupt m =>
    rw [settleDown_read_corrupt hj hx hp hr hl hv]
    obtain ⟨rest, hout, hresponse, htrace⟩ := settleDown_finish_out (c := c)
      (t := (({ s with readAnswers := rs, rxbuf := bytes } : State).checked c
        (frameChecks c x.words 0 bytes)).raise .checksumMismatch) hj (.fail .checksumMismatch)
    exact ⟨rest, hout, fun _ => hresponse (.inr ⟨_, rfl⟩), htrace⟩

end Trace

/-- Settles O59: a run without the trace port is the run with it, the trace events apart (`settleDown_eraseTrace`), and the
checks shown are those of the words up to the first mismatch (`traceEvents_eq_shownChecks`). -/
theorem traceShowsEachCheckAndChangesNothingElse : Obligations.TraceShowsEachCheckAndChangesNothingElse := by
  refine ⟨fun c s j => settleDown_eraseTrace c true (s.start j),
    fun c i x s bytes ws n rs hx h1 hc hpolicy hb hw hn hr hl => ?_,
    fun c j s bytes rs hc hinv h0 hj hp hr hl => ?_, fun c w rx s hc => ?_, fun c b0 b1 k s hc => ?_⟩
  · obtain ⟨j, v, a, hl', hlaunch, rfl⟩ := launched_of_firstXact (s := s) hx hpolicy
    have hread := settleDown_to_read (c := c) (s := (s.startWith j v a).assemble c (j.xact v a)) rfl rfl h1
      (.inl ⟨rfl, hw, hn⟩)
    obtain ⟨rest, hout, hresponse, htrace⟩ := settleDown_reply_shown (c := c) (j := j)
      (s := State.movedTo ((s.startWith j v a).assemble c (j.xact v a)) .read ws n _) rfl rfl rfl hr hl
    refine ⟨_, rest, (execIn_of_wellFormed hc).trans (operationIn_of_launched hb hl'), ?_, fun h =>
      hresponse (h.imp_left fun hi hj => hi (hlaunch.beginSeq_iff.mp hj)), htrace⟩
    rw [settleDown_startWith, hread, hout, ← xactScript_of_words c h1]
    exact congrArg (· ++ shownChecks c (j.xact v a).words bytes ++ rest) (List.append_assoc s.out [_] _)
  · obtain ⟨rest, hrest⟩ := settleDown_reply_shown (c := c) hj rfl hp hr hl
    exact ⟨_, rest, stepIn_of_busy hc h0 hinv.sequencer (busy_of_job hinv.sequencer hj), hrest⟩
  · rw [execIn_of_wellFormed hc]
    have hlen : 3 * min w (rx.length / 3) ≤ rx.length := by omega
    refine ⟨_, frameResult c w rx, rfl, ?_, fun h1 h3 hl => frameResult_of_bounds h1 h3 hl⟩
    rw [← traceEvents_eq_shownChecks hlen, ← frameChecks_whole]
    rfl
  · rw [execIn_of_wellFormed hc]
    exact ⟨_, rfl, rfl⟩

end Sys2Proof.Machine
end
